-- ==== Sys2Proof/Word.lean ====
section
/-! DEFINITION. The word types of the KC240: bytes and two-byte fields. -/

namespace Sys2Proof

/-- One byte of a character, a frame or a field (R1, R6). -/
abbrev Byte := BitVec 8

/-- A field of two bytes, and the register of the frame check (R7). -/
abbrev Word16 := BitVec 16

/-- The twelve bit positions of a character, position 0 first on the wire; a set bit is marking (R1). -/
abbrev WireChar := BitVec 12

/-- The three samples of each of the twelve bit positions: bits `3k`, `3k + 1`, `3k + 2` are those of
position `k`; a set bit is marking (R2). -/
abbrev Samples := BitVec 36

end Sys2Proof
end

