-- ==== Sys2Proof/Syntax.lean ====
section
/-! DEFINITION. The commands of the KC240: one constructor per row of spec/opcode_table.json. -/

namespace Sys2Proof

/-- The three lines (section 1.2 of the scope). -/
inductive Line where
  | field | drive | kiln
  deriving DecidableEq, Repr

/-- The two half-duplex pairs, which have a stuck monitor and a line state (R17). -/
inductive PairLine where
  | field | drive
  deriving DecidableEq, Repr

/-- The strap inputs, read at power-up (section 7 of the scope, R5, R156). -/
structure Straps where
  addr  : BitVec 3
  frate : BitVec 2
  drate : BitVec 2
  krate : BitVec 2
  deriving DecidableEq, Repr

/-- The levels the partners put on the three receive pairs at power-up; `true` is spacing (R18). -/
structure PairLevels where
  field : Bool
  drive : Bool
  kiln  : Bool
  deriving DecidableEq, Repr

/-- The order in which an entry to FAULT reaches the line's owner, the Schedule Sequencer and the Fault Record
Set. R19 states that these need no order among themselves, and R141, R148 and R152 that either may be taken
first, so the event carries the order in which they are taken. -/
inductive FaultOrder where
  | ownerSequencerRecord | ownerRecordSequencer | sequencerOwnerRecord
  | sequencerRecordOwner | recordOwnerSequencer | recordSequencerOwner
  deriving DecidableEq, Repr

/-- The order of a Kiln Line break and the admission of a frame completed just before it. R163 lets the two fall
together with either taken first, so the event carries the order. -/
inductive BreakOrder where
  | admissionFirst | breakFirst
  deriving DecidableEq, Repr

/-- Where a BREAK character is received: on a pair, or on the Kiln Line, where it is also a Kiln Line break (R16) and
carries the order of R163. -/
inductive BreakLine where
  | pair (line : PairLine)
  | kiln (order : BreakOrder)
  deriving DecidableEq, Repr

/-- The part's commands. A request row is the step in which the Management Handler takes the front frame of
the intake queue and executes it (R160): its operands are the bytes of that frame's payload, which State
holds. The rules named are those of the table. -/
inductive Instr where
  /-- POWER_UP (R17): RESET_N or the application of power, with the straps and pair levels it finds. -/
  | powerUp (straps : Straps) (levels : PairLevels)
  /-- CHARACTER_RECEIVED (R9): a receiver has sampled the twelve positions of a character. -/
  | characterReceived (line : Line) (samples : Samples)
  /-- BREAK_CHARACTER (R3): a line held spacing for a whole character time. -/
  | breakCharacter (line : BreakLine)
  /-- SPACING_SPELL_START (R18): a pair changes to spacing. -/
  | spacingSpellStart (line : PairLine)
  /-- SPACING_SPELL_END (R18): a pair returns to marking. -/
  | spacingSpellEnd (line : PairLine)
  /-- GAP_LIMIT_EXPIRY (R11). -/
  | gapLimitExpiry (line : Line)
  /-- STUCK_LIMIT_EXPIRY (R19), with the order in which its effects are taken. -/
  | stuckLimitExpiry (line : PairLine) (order : FaultOrder)
  /-- TRANSMIT_START (R13). -/
  | transmitStart (line : PairLine)
  /-- TRANSMIT_END (R14). -/
  | transmitEnd (line : PairLine)
  /-- REPLY_TRANSMIT_END (R15). -/
  | replyTransmitEnd
  /-- REPLY_HANDOVER (R160). -/
  | replyHandover
  /-- CYCLE_TIMER_EXPIRY (R26). -/
  | cycleTimerExpiry
  /-- SCAN_ANSWER_TIMEOUT (R31). -/
  | scanAnswerTimeout
  /-- DRIVE_PERIOD_EXPIRY (R137). -/
  | drivePeriodExpiry
  /-- DRIVE_ANSWER_TIMEOUT (R139). -/
  | driveAnswerTimeout
  /-- MINUTE_TICK (R144). -/
  | minuteTick
  /-- STEP_LIMIT (R115): the minute tick at which the step reaches its maximum duration. -/
  | stepLimit
  /-- FAN_REVERSAL (R124): the minute tick at which the fan direction changes. -/
  | fanReversal
  /-- IDENTIFY (R166). -/
  | identify
  /-- READ_LINE_STATUS (R21). -/
  | readLineStatus
  /-- SET_CONFIG (R164). -/
  | setConfig
  /-- READ_CONFIG (R165). -/
  | readConfig
  /-- SET_ADDRESS_SLOT (R157). -/
  | setAddressSlot
  /-- LINE_RESTART (R20). -/
  | lineRestart
  /-- LOAD_CURVE (R70). -/
  | loadCurve
  /-- READ_CURVE (R72). -/
  | readCurve
  /-- MAP_PROBE (R48). -/
  | mapProbe
  /-- UNMAP_PROBES (R50). -/
  | unmapProbes
  /-- EXCLUDE_PROBES (R51). -/
  | excludeProbes
  /-- INCLUDE_PROBES (R52). -/
  | includeProbes
  /-- READ_PROBE (R65). -/
  | readProbe
  /-- READ_NODE (R44). -/
  | readNode
  /-- FIELD_START (R40). -/
  | fieldStart
  /-- FIELD_HALT (R41). -/
  | fieldHalt
  /-- READ_ESTIMATE (R95). -/
  | readEstimate
  /-- READ_RANKING (R96). -/
  | readRanking
  /-- LOAD_STEP (R101). -/
  | loadStep
  /-- READ_STEP (R103). -/
  | readStep
  /-- SET_STEP_COUNT (R102). -/
  | setStepCount
  /-- START (R104). -/
  | start
  /-- RESUME (R105). -/
  | resume
  /-- HOLD (R107). -/
  | hold
  /-- RELEASE (R107). -/
  | release
  /-- SKIP (R108). -/
  | skip
  /-- ABORT (R109). -/
  | abort
  /-- CHARGE_RESET (R110). -/
  | chargeReset
  /-- READ_SCHEDULE (R125). -/
  | readSchedule
  /-- READ_HISTORY (R120). -/
  | readHistory
  /-- SET_ENVELOPE (R130). -/
  | setEnvelope
  /-- READ_ENVELOPE (R130). -/
  | readEnvelope
  /-- SET_ZONE_MODE (R129). -/
  | setZoneMode
  /-- READ_ZONE (R142). -/
  | readZone
  /-- READ_FAULT (R149). -/
  | readFault
  /-- CLEAR_FAULTS (R150). -/
  | clearFaults
  /-- COLLECT_NOTICES (R153). -/
  | collectNotices
  /-- ZONE_SET (R134): the front frame stands in the zone window. -/
  | zoneSet
  /-- UNKNOWN_REQUEST (R162): the front frame carries a kind outside the catalogue. -/
  | unknownRequest
  /-- KILN_LINE_MARKING_RETURN (R3). -/
  | kilnLineMarkingReturn
  deriving DecidableEq, Repr

end Sys2Proof
end

