-- ==== Sys2Proof/Decode.lean ====
section
/-! DEFINITION. Words of the opcode table. The table of this block gives no row any bits: its commands are steps
and events, not encoded words (log entry 2), so no word spells one. How a request's frame spells its kind is
`requestOfKind` of Machine/Operands.lean. -/

namespace Sys2Proof

/-- The command a word of the table spells: none, since no row has bits. -/
def decodeTableWord (_nbits _w : Nat) : Option Instr := none

end Sys2Proof
end

