-- ==== Sys2Proof/Config.lean ====
section
/-! DEFINITION. What the part fixes (capacities, codes, limits) and the free values: constants without a body,
of which nothing can be proved. -/

namespace Sys2Proof.Config

/-- Free value (log entry 12): the two bytes sent for a signed figure that two bytes cannot hold. R167 and
section 11.6 give such a field two bytes and state no encoding for it. -/
opaque unstatedSigned16 : Int → Word16

/-- Free value (log entry 13): the MC of a corrected code on a profile that holds no point. R67 keeps a mapped
probe from naming such a profile, so no rule states a figure. -/
opaque unstatedMc : Nat → Nat

/-- R158: frames the intake queue holds. -/
def intakeCapacity : Nat := 8
/-- R159: the count at which KL_RDY is deasserted. -/
def intakeHigh : Nat := 6
/-- R159: the count at which KL_RDY is asserted again. -/
def intakeLow : Nat := 2
/-- R151: notices the Notice Queue holds. -/
def noticeCapacity : Nat := 32
/-- R144: the top of the uptime minute counter. -/
def uptimeTop : Nat := 4194303
/-- Section 4.3, R114: the top of the charge minute counter. -/
def chargeTop : Nat := 1048575
/-- R6: the longest payload. -/
def payloadTop : Nat := 80
/-- R1: bit times of one character. -/
def charBits : Nat := 12
/-- R11: the gap limit, four character times, in bit times. -/
def gapLimit : Nat := 4 * charBits
/-- R13: the idle time before a transmission, two character times, in bit times. -/
def idleLimit : Nat := 2 * charBits
/-- R166, section 11.3: family, part and revision codes. -/
def identity : List Byte := [0x06, 0x24, 0x01]
/-- R166: probe entries, nodes, zones, profiles, steps, fault records, notices. -/
def capacities : List Byte := [192, 16, 8, 8, 24, 16, 32]
/-- R22: node `n` answers at this address plus `n`. -/
def nodeBase : Byte := 0x40
/-- R126: zone `z`'s driver answers at this address plus `z`. -/
def driverBase : Byte := 0x50

end Sys2Proof.Config
end

