-- ==== Sys2Proof/Machine/State.lean ====
section
/-! DEFINITION. The state of the KC240, every piece the spec gives it, as plain data, and the state right after
power-up. The rule beside a field is the one that names it. -/

namespace Sys2Proof.Machine

/-- No command of the KC240 stops the part: the spec gives every step an effect, and what it calls a fault is a
record (R146) or a line state (R19). No meaning raises a fault, so the type has no constructor (safe). -/
inductive Fault where
  deriving DecidableEq, Repr

/-- The reasons a command is refused by the model. -/
inductive Refusal where
  /-- A command without a meaning yet; raised by an arm of `exec` alone, and by none at present. Safe: the
  model stops where the part goes on. -/
  | notModelled (mnemonic : String)
  deriving DecidableEq, Repr

/-! ### Line units (chapter 1) -/

/-- A timer: stopped, or running with the limit read when it was started. What has passed of the limit is not
counted (log entry 4); its running out is a command. -/
inductive Timer where
  | stopped
  | running (limit : Nat)
  deriving DecidableEq, Repr

/-- R17: the state a line unit records on entering FAULT and LINE_RESTART restores. -/
inductive ReturnState where
  | halted | running
  deriving DecidableEq, Repr

/-- R17: the line state of a Field or Drive unit. A return state exists in FAULT alone. -/
inductive LineState where
  | halted
  | running
  | fault (back : ReturnState)
  deriving DecidableEq, Repr

/-- R12: the last discard reason. -/
inductive DiscardReason where
  | none | charError | truncated | badLength | badCheck | full
  deriving DecidableEq, Repr

/-- Section 1.3: the record of the frame in progress, held in BODY. `gap` is the gap timer, in bit times. -/
structure FrameRecord where
  address : Byte
  kind    : Option Byte
  length  : Option Nat
  payload : List Byte
  check   : List Byte
  crc     : Word16
  noisy   : Bool
  gap     : Timer
  deriving DecidableEq, Repr

/-- Section 1.3: the frame assembler. -/
inductive Assembler where
  | hunt
  | body (frame : FrameRecord)
  deriving DecidableEq, Repr

/-- R6: a frame as an owner sends it or is given it; length and check follow from it. -/
structure Frame where
  address : Byte
  kind    : Byte
  payload : List Byte
  deriving DecidableEq, Repr

/-- R14: the transmit slot. A frame being sent stands beside its characters as they go out (R1, R6, R7). -/
inductive TxSlot where
  | empty
  | waiting (frame : Frame)
  | sending (frame : Frame) (wire : List WireChar)
  deriving DecidableEq, Repr

/-- A Field or Drive line unit. -/
structure PairUnit where
  /-- R17. -/
  lineState : LineState
  /-- Section 1.3. -/
  assembler : Assembler
  /-- R12. -/
  lastDiscard : DiscardReason
  /-- R5: the rate code read from the strap. -/
  rate : BitVec 2
  /-- R18, R20: whether the partners hold the pair spacing. -/
  pairSpacing : Bool
  /-- R2, R3: whether the receiver waits for marking before it looks for a start bit. -/
  awaitMarking : Bool
  /-- R18: the spell the stuck monitor times, its limit in milliseconds. -/
  spell : Timer
  /-- R13: the idle count, running toward two character times (in bit times) or held. -/
  idle : Timer
  /-- R14. -/
  slot : TxSlot
  deriving DecidableEq, Repr

/-- R15: a reply being sent, with its characters. -/
structure SendingReply where
  frame : Frame
  wire  : List WireChar
  deriving DecidableEq, Repr

/-- The Kiln line unit. -/
structure KilnUnit where
  assembler    : Assembler
  lastDiscard  : DiscardReason
  rate         : BitVec 2
  awaitMarking : Bool
  /-- R15: the reply being sent. -/
  sending : Option SendingReply
  /-- R15: the waiting place. -/
  waiting : Option Frame
  deriving DecidableEq, Repr

/-! ### Probe Poller (chapter 2) -/

/-- R22. -/
inductive NodeState where
  | vacant | online | absent
  deriving DecidableEq, Repr

/-- R22: the result of the last scan attempt that ran to an end. -/
inductive ScanOutcome where
  | none | committed | noAnswer | corrupt | outOfOrder | incomplete
  deriving DecidableEq, Repr

/-- R22: a node temperature in tenths of a degree with its status. -/
structure NodeTemp where
  value : Int
  fault : Bool
  deriving DecidableEq, Repr

/-- R22: an entry of the Node Table. Bit `c` of the mask is channel `c`. -/
structure NodeEntry where
  state          : NodeState
  mask           : BitVec 16
  misses         : Nat
  marginal       : Nat
  lastTemp       : Option NodeTemp
  lastScanMinute : Option Nat
  lastOutcome    : ScanOutcome
  deriving DecidableEq, Repr

/-- Section 2.2. -/
inductive PollPhase where
  | idle | cycling | draining
  deriving DecidableEq, Repr

/-- Sections 2.3 and 7.6: SENDING while the frame is in the transmit slot, WAITING with the answer window open. -/
inductive ExchangePhase where
  | sending | waiting
  deriving DecidableEq, Repr

/-- Section 3.4: the channel status of a reading. -/
inductive ChannelStatus where
  | valid | openCircuit | short | guarded
  deriving DecidableEq, Repr

/-- Section 2.3: a channel entry of a SAMPLE part. -/
structure ChannelEntry where
  channel : Nat
  code    : Nat
  status  : ChannelStatus
  deriving DecidableEq, Repr

/-- Section 2.3: the staging record of the visit in flight. -/
structure Staging where
  node     : Fin 16
  retries  : Nat
  tag      : Byte
  mask     : BitVec 16
  phase    : ExchangePhase
  nextPart : Nat
  entries  : List ChannelEntry
  temp     : Option NodeTemp
  noisy    : Bool
  /-- R31: the scan answer timeout, in milliseconds. -/
  timeout  : Timer
  /-- R39: the node became VACANT while the attempt was in flight. -/
  lost     : Bool
  deriving DecidableEq, Repr

/-- The Probe Poller. -/
structure Poller where
  nodes        : Vector NodeEntry 16
  phase        : PollPhase
  /-- R26: the cycle timer, in seconds. -/
  cycleTimer   : Timer
  nextCycle    : Word16
  currentCycle : Option Word16
  cycleDue     : Bool
  /-- R28: 0..16. -/
  visitPos     : Nat
  nextTag      : Byte
  staging      : Option Staging
  deriving DecidableEq, Repr

/-! ### Probe Table (chapter 3) and Curve Store (chapter 4) -/

/-- R46. -/
inductive ProbeState where
  | unmapped | settling | active | suspect | stale | excluded
  deriving DecidableEq, Repr

/-- R46: what MAP_PROBE sets. -/
structure Mapping where
  node    : Fin 16
  channel : Fin 16
  zone    : Fin 8
  profile : Fin 8
  deriving DecidableEq, Repr

/-- R55: the last code and channel status, recorded together. -/
structure Reading where
  code   : Nat
  status : ChannelStatus
  deriving DecidableEq, Repr

/-- R79: the range flag. -/
inductive RangeFlag where
  | none | wetEnd | dryEnd
  deriving DecidableEq, Repr

/-- R74: the temperature source of a conversion. -/
inductive TempSource where
  | node | zoneMeasured | setpoint | reference
  deriving DecidableEq, Repr

/-- R73: what the Conversion Engine hands back; the four fields of R46 that are present together. -/
structure Conversion where
  corrected : Nat
  mc        : Nat
  flag      : RangeFlag
  source    : TempSource
  deriving DecidableEq, Repr

/-- R55: the reason of a rejection. -/
inductive RejectReason where
  | openCircuit | short | guarded | jump
  deriving DecidableEq, Repr

/-- R46: an entry of the Probe Table. -/
structure ProbeEntry where
  state        : ProbeState
  mapping      : Option Mapping
  manual       : Bool
  reading      : Option Reading
  conversion   : Option Conversion
  filtered     : Option Nat
  held         : Option Nat
  progress     : Nat
  streak       : Nat
  lastReject   : Option RejectReason
  lastAccepted : Option Nat
  deriving DecidableEq, Repr

/-- R67: a point of a curve. -/
structure CurvePoint where
  code : Nat
  mc   : Nat
  deriving DecidableEq, Repr

/-- R67: a species profile; the point count is the length of the point list. -/
structure Profile where
  loaded : Bool
  kt     : Nat
  points : List CurvePoint
  deriving DecidableEq, Repr

/-! ### Charge Estimator (chapter 5) -/

/-- R85. -/
structure RankEntry where
  probe : Fin 192
  mc    : Nat
  zone  : Fin 8
  held  : Bool
  deriving DecidableEq, Repr

/-- R90: an Estimate with its Wet Ranking. -/
structure Estimate where
  sequence     : Word16
  cycle        : Word16
  uptime       : Nat
  chargeMinute : Option Nat
  sufficient   : Bool
  n            : Nat
  heldCount    : Nat
  chargeCmc    : Option Nat
  spread       : Option Nat
  wettest      : Option Nat
  driest       : Option Nat
  mean         : Option Nat
  zoneCount    : Vector Nat 8
  zoneCmc      : Vector (Option Nat) 8
  ranking      : List RankEntry
  deriving DecidableEq, Repr

/-- The Charge Estimator. -/
structure Estimator where
  current      : Option Estimate
  nextSequence : Word16
  /-- R92, R93. -/
  lagFlags     : Vector Bool 8
  deriving DecidableEq, Repr

/-! ### Schedule Sequencer (chapter 6) -/

/-- R99. -/
inductive StepKind where
  | heatUp | dry | equalize | condition | cool
  deriving DecidableEq, Repr

/-- R99. -/
inductive StepCondition where
  | time | mcBelow | spreadBelow
  deriving DecidableEq, Repr

/-- R99: the fields of a loaded step record. -/
structure StepRecord where
  kind        : StepKind
  target      : Nat
  depression  : Nat
  condition   : StepCondition
  threshold   : Option Nat
  minimum     : Nat
  maximum     : Nat
  rampRate    : Nat
  fanInterval : Nat
  deriving DecidableEq, Repr

/-- Section 6.2. -/
inductive ScheduleState where
  | empty | loaded | running | held | ended | aborted
  deriving DecidableEq, Repr

/-- R111: the hold-cause set. -/
structure Causes where
  manual     : Bool
  starved    : Bool
  fieldFault : Bool
  driveFault : Bool
  deriving DecidableEq, Repr

/-- R120. -/
inductive ExitReason where
  | condition | timeDone | timeLimit | skipped
  deriving DecidableEq, Repr

/-- R120. -/
structure HistoryEntry where
  step        : Nat
  entryMinute : Nat
  exitMinute  : Nat
  reason      : ExitReason
  cmcAtExit   : Option Nat
  deriving DecidableEq, Repr

/-- R124. -/
inductive FanDirection where
  | forward | reverse
  deriving DecidableEq, Repr

/-- The Schedule Sequencer. An unloaded step record has no fields (R99). -/
structure Sequencer where
  steps        : Vector (Option StepRecord) 24
  stepCount    : Nat
  state        : ScheduleState
  stepIndex    : Option Nat
  elapsed      : Nat
  entryMinute  : Nat
  chargeMinute : Nat
  causes       : Causes
  streak       : Nat
  history      : List HistoryEntry
  /-- R121: hundredths of a degree. -/
  basis        : Option Int
  /-- R122: hundredths of a degree. -/
  working      : Option Int
  fan          : FanDirection
  deriving DecidableEq, Repr

/-! ### Zone Controller (chapter 7) -/

/-- R126. -/
inductive ZoneMode where
  | off | auto | manual
  deriving DecidableEq, Repr

/-- R126. -/
inductive DriverState where
  | unknown | answering | silent
  deriving DecidableEq, Repr

/-- R127. -/
inductive FrameOrigin where
  | idle | schedule | supervisor
  deriving DecidableEq, Repr

/-- R127: the stage a frame carries. -/
inductive Stage where
  | none | heatUp | dry | equalize | condition | cool
  deriving DecidableEq, Repr

/-- R127: a dry-bulb and a wet-bulb in tenths of a degree. -/
structure Setpoints where
  dry : Int
  wet : Int
  deriving DecidableEq, Repr

/-- R131: the clamp marks. -/
structure ClampMarks where
  dry        : Bool
  depression : Bool
  wet        : Bool
  deriving DecidableEq, Repr

/-- R127: the content of a SETPOINT frame. -/
structure SetpointFrame where
  tag       : Byte
  origin    : FrameOrigin
  fanRun    : Bool
  direction : FanDirection
  stage     : Stage
  setpoints : Option Setpoints
  marks     : ClampMarks
  deriving DecidableEq, Repr

/-- R134: the manual record, as the supervisor sent it. -/
structure ManualRecord where
  fanRun    : Bool
  direction : FanDirection
  stage     : Stage
  setpoints : Option Setpoints
  deriving DecidableEq, Repr

/-- R138: the alarm set. -/
structure Alarms where
  overTemp     : Bool
  fanFail      : Bool
  waterLow     : Bool
  localControl : Bool
  deriving DecidableEq, Repr

/-- R138: the last status. -/
structure DriverStatus where
  dry    : Int
  wet    : Int
  heat   : Nat
  vent   : Nat
  spray  : Nat
  alarms : Alarms
  deriving DecidableEq, Repr

/-- R126: an entry of the Zone Table. -/
structure ZoneEntry where
  mode        : ZoneMode
  driver      : DriverState
  misses      : Nat
  lastStatus  : Option DriverStatus
  age         : Nat
  manual      : Option ManualRecord
  lastBuilt   : SetpointFrame
  nextTag     : Byte
  clampedLast : Bool
  deriving DecidableEq, Repr

/-- Section 7.3. -/
structure Envelope where
  dryFloor   : Int
  dryCeiling : Int
  wetFloor   : Int
  wetCeiling : Int
  depMin     : Int
  depMax     : Int
  deriving DecidableEq, Repr

/-- R136, R138: a frame of the Drive Queue with its zone and the mode the zone held when it was built. -/
structure QueuedFrame where
  zone        : Fin 8
  frame       : SetpointFrame
  modeAtBuild : ZoneMode
  deriving DecidableEq, Repr

/-- Section 7.6: the drive exchange in flight; its tag is that of the frame. -/
structure DriveExchange where
  entry   : QueuedFrame
  phase   : ExchangePhase
  /-- R138: the drive answer timeout, in milliseconds. -/
  timeout : Timer
  deriving DecidableEq, Repr

/-- The Zone Controller. -/
structure ZoneControl where
  table       : Vector ZoneEntry 8
  envelope    : Envelope
  queue       : List QueuedFrame
  exchange    : Option DriveExchange
  /-- R137: the drive period timer, in seconds. -/
  periodTimer : Timer
  deriving DecidableEq, Repr

/-! ### Fault Record Set and Notice Queue (chapter 8) -/

/-- Section 8.2: source kind and source number. -/
inductive FaultSource where
  | probe (number : Fin 192)
  | node (number : Fin 16)
  | zone (number : Fin 8)
  | line (number : PairLine)
  deriving DecidableEq, Repr

/-- Section 8.2. -/
inductive FaultReason where
  | probeOpen | probeShort | probeGuard | probeJump | probeExcluded
  | nodeAbsent | nodeMarginal | nodeTempFault
  | zoneNoAnswer | zoneAlarm | lineStuck
  deriving DecidableEq, Repr

/-- Section 8.2: a present record. -/
structure FaultRecord where
  source    : FaultSource
  reason    : FaultReason
  firstSeen : Nat
  lastSeen  : Nat
  repeats   : Nat
  detail    : Option Int
  deriving DecidableEq, Repr

/-- The Fault Record Set; `none` is a free record. -/
structure FaultSet where
  records  : Vector (Option FaultRecord) 16
  overflow : Bool
  deriving DecidableEq, Repr

/-- Section 8.4. -/
inductive NoticeKind where
  | stepChange | scheduleState | faultRecorded | faultLost | zoneLag | envelopeClamp
  deriving DecidableEq, Repr

/-- Section 8.4. -/
structure Notice where
  kind    : NoticeKind
  subject : Nat
  minute  : Nat
  value1  : Option Nat
  value2  : Option Nat
  deriving DecidableEq, Repr

/-- The Notice Queue with its LOST marker, oldest notice first. -/
structure NoticeQueue where
  items : List Notice
  lost  : Bool
  deriving DecidableEq, Repr

/-! ### Management Handler (chapter 9) -/

/-- R135: the zones a window address names. -/
inductive ZoneTarget where
  | one (zone : Fin 8)
  | all
  deriving DecidableEq, Repr

/-- R156: the class a Kiln frame was matched with. -/
inductive AddressClass where
  | station
  | window (target : ZoneTarget)
  | broadcast
  | slot1
  deriving DecidableEq, Repr

/-- R158: a frame of the intake queue. -/
structure KilnFrame where
  cls     : AddressClass
  address : Byte
  kind    : Byte
  payload : List Byte
  noisy   : Bool
  deriving DecidableEq, Repr

/-- R163: the frame completed last on the Kiln Line, with the discard reason that stood when it was delivered. -/
structure CompletedFrame where
  frame         : KilnFrame
  discardBefore : DiscardReason
  deriving DecidableEq, Repr

/-- R157. -/
structure AddressSlot where
  address : Byte
  mask    : Byte
  valid   : Bool
  deriving DecidableEq, Repr

/-- R160: the reply in the reply place, with the kind of the request it answers. -/
structure Reply where
  frame       : Frame
  requestKind : Byte
  deriving DecidableEq, Repr

/-- The Management Handler. -/
structure Handler where
  slot1      : AddressSlot
  intake     : List KilnFrame
  replyPlace : Option Reply
  klRdy      : Bool
  /-- R163: the frame completed just before, whose admission a break may still precede: until the next character of
  the Kiln Line, or until a frame is taken for execution (log entry 28). -/
  completed  : Option CompletedFrame
  deriving DecidableEq, Repr

/-- Section 9.5: the 23 parameters, in the order of their ids. -/
inductive Param where
  | cyclePeriod | scanAnswerTimeout | retryLimit | missLimit | marginalLimit | settleCount | rejectLimit
  | jumpLimit | filterWeight | chargeDiscard | wetCount | chargeMinimum | zoneDiscard | zoneMinimum
  | starvationLimit | zoneLagLimit | drivePeriod | driveAnswerTimeout | driveMissLimit | stuckUnit
  | stuckCount | attentionEnable | groupControlEnable
  deriving DecidableEq, Repr

/-- Section 9.5: the values of the parameters; entry `i` is the parameter with id `i + 1`. -/
abbrev Params := Vector Nat 23

/-! ### The whole part -/

/-- The state of the KC240. `pending` is the model's queue of commands, first in, first out; every other field
is the part's. ATTN, the published setpoints and the freshness of a status are functions of these fields. -/
structure State where
  pending   : List Instr
  straps    : Straps
  params    : Params
  uptime    : Nat
  field     : PairUnit
  drive     : PairUnit
  kiln      : KilnUnit
  poller    : Poller
  probes    : Vector ProbeEntry 192
  curves    : Vector Profile 8
  estimator : Estimator
  sequencer : Sequencer
  zones     : ZoneControl
  faults    : FaultSet
  notices   : NoticeQueue
  handler   : Handler
  deriving DecidableEq, Repr

/-! ### Power-up values -/

/-- R164: the defaults of the table of section 9.5. -/
def paramDefaults : Params :=
  #v[60, 20, 1, 3, 4, 3, 4, 30, 4, 1, 8, 4, 0, 2, 3, 40, 10, 20, 3, 2, 10, 1, 0]

/-- R8, R12, R13, R17, R18: a pair unit at power-up with its pair marking; the slot is empty (DESIGN CHOICE,
log entry 6). -/
def pairUnitReset (st : LineState) : PairUnit :=
  { lineState := st, assembler := .hunt, lastDiscard := .none, rate := 0, pairSpacing := false,
    awaitMarking := false, spell := .stopped, idle := .running Config.idleLimit, slot := .empty }

/-- R8, R12: the Kiln unit at power-up; no reply held (DESIGN CHOICE, log entry 6). -/
def kilnUnitReset : KilnUnit :=
  { assembler := .hunt, lastDiscard := .none, rate := 0, awaitMarking := false, sending := none, waiting := none }

/-- R22: a VACANT node entry. -/
def nodeReset : NodeEntry :=
  { state := .vacant, mask := 0, misses := 0, marginal := 0, lastTemp := none, lastScanMinute := none,
    lastOutcome := .none }

/-- Section 2.2: the Poller at power-up. -/
def pollerReset : Poller :=
  { nodes := Vector.replicate 16 nodeReset, phase := .idle, cycleTimer := .stopped, nextCycle := 0,
    currentCycle := none, cycleDue := false, visitPos := 0, nextTag := 0, staging := none }

/-- R46: an UNMAPPED probe entry. -/
def probeReset : ProbeEntry :=
  { state := .unmapped, mapping := none, manual := false, reading := none, conversion := none, filtered := none,
    held := none, progress := 0, streak := 0, lastReject := none, lastAccepted := none }

/-- R67: an unloaded profile. -/
def profileReset : Profile := { loaded := false, kt := 0, points := [] }

/-- R83, R93: the Estimator at power-up. -/
def estimatorReset : Estimator :=
  { current := none, nextSequence := 0, lagFlags := Vector.replicate 8 false }

/-- R111: the empty hold-cause set. -/
def noCauses : Causes := { manual := false, starved := false, fieldFault := false, driveFault := false }

/-- Chapter 6: the Sequencer at power-up. -/
def sequencerReset : Sequencer :=
  { steps := Vector.replicate 24 none, stepCount := 0, state := .empty, stepIndex := none, elapsed := 0,
    entryMinute := 0, chargeMinute := 0, causes := noCauses, streak := 0, history := [], basis := none,
    working := none, fan := .forward }

/-- R131: no clamp mark. -/
def noMarks : ClampMarks := { dry := false, depression := false, wet := false }

/-- R136: the IDLE frame built as the power-up of a zone into OFF, tag 0. -/
def powerUpFrame : SetpointFrame :=
  { tag := 0, origin := .idle, fanRun := false, direction := .forward, stage := .none, setpoints := none,
    marks := noMarks }

/-- R126: a zone entry at power-up. -/
def zoneReset : ZoneEntry :=
  { mode := .off, driver := .unknown, misses := 0, lastStatus := none, age := 0, manual := none,
    lastBuilt := powerUpFrame, nextTag := 1, clampedLast := false }

/-- Section 7.3: every pair disabled. -/
def envelopeReset : Envelope :=
  { dryFloor := 1, dryCeiling := 0, wetFloor := 1, wetCeiling := 0, depMin := 1, depMax := 0 }

/-- R136, R137, R143: the Zone Controller at power-up, eight IDLE frames queued and the period timer started
with the default drive period. -/
def zoneControlReset : ZoneControl :=
  { table := Vector.replicate 8 zoneReset, envelope := envelopeReset,
    queue := (List.finRange 8).map (fun z => { zone := z, frame := powerUpFrame, modeAtBuild := .off }),
    exchange := none, periodTimer := .running 10 }

/-- Chapter 9: the Handler at power-up. -/
def handlerReset : Handler :=
  { slot1 := { address := 0, mask := 0, valid := false }, intake := [], replyPlace := none, klRdy := true,
    completed := none }

/-- The part right after power-up (R17 and the power-up value of every item), with the straps at 0, the pairs
marking (both inputs; DESIGN CHOICE, log entry 6) and no command waiting. -/
def State.reset : State :=
  { pending := [], straps := { addr := 0, frate := 0, drate := 0, krate := 0 }, params := paramDefaults,
    uptime := 0, field := pairUnitReset .halted, drive := pairUnitReset .running, kiln := kilnUnitReset,
    poller := pollerReset, probes := Vector.replicate 192 probeReset, curves := Vector.replicate 8 profileReset,
    estimator := estimatorReset, sequencer := sequencerReset, zones := zoneControlReset,
    faults := { records := Vector.replicate 16 none, overflow := false },
    notices := { items := [], lost := false }, handler := handlerReset }

end Sys2Proof.Machine
end

