-- ==== Sys2Proof/Machine/Flags.lean ====
section
/-! DEFINITION. Tags, marks, checks and sets: the receiver's tags (R2, R3), the transmitter's parity and the frame
check (R1, R6, R7), the codes of section 11.3 and the bits of its sets. -/

namespace Sys2Proof.Machine

/-! ### Characters (R1 to R3) -/

/-- The majority of three samples (R2). -/
def majority (a b c : Bool) : Bool := (a && b) || (a && c) || (b && c)

/-- The value of bit position `k`; `true` is marking (R2). -/
def positionValue (w : Samples) (k : Nat) : Bool :=
  majority (w.getLsbD (3 * k)) (w.getLsbD (3 * k + 1)) (w.getLsbD (3 * k + 2))

/-- Whether the three samples of bit position `k` agree (R2, NOISE). -/
def positionAgrees (w : Samples) (k : Nat) : Bool :=
  w.getLsbD (3 * k) == w.getLsbD (3 * k + 1) && w.getLsbD (3 * k + 1) == w.getLsbD (3 * k + 2)

/-- The byte whose bit `k` is `f k`. -/
def byteOfBits (f : Nat → Bool) : Byte :=
  (List.range 8).foldl (fun b k => if f k then b ||| (1#8 <<< k) else b) 0#8

/-- How many of the ten positions from the first data bit to the parity bit are 1 (R2, PARITY). -/
def onesReceived (w : Samples) : Nat := (List.range 10).countP fun k => positionValue w (k + 1)

/-- A character as the receiver delivers it: data byte, mark bit and tags (R2, R3). -/
structure RxChar where
  data    : Byte
  mark    : Bool
  noise   : Bool
  parity  : Bool
  framing : Bool
  brk     : Bool
  deriving DecidableEq, Repr

/-- R3: the BREAK character, tag BREAK alone. -/
def breakChar : RxChar :=
  { data := 0, mark := false, noise := false, parity := false, framing := false, brk := true }

/-- Whether every one of the twelve positions has a majority value of spacing (R3). -/
def allSpacing (w : Samples) : Bool := (List.range 12).all fun k => !positionValue w k

/-- R2, R3: the character the receiver makes of the samples; none when the start bit's majority is marking. -/
def receive (w : Samples) : Option RxChar :=
  if positionValue w 0 then none
  else if allSpacing w then some breakChar
  else some
    { data := byteOfBits fun k => positionValue w (k + 1)
      mark := positionValue w 9
      noise := (List.range 12).any fun k => !positionAgrees w k
      parity := onesReceived w % 2 == 0
      framing := !positionValue w 11
      brk := false }

/-- The number of 1s of a byte. -/
def onesOf (b : Byte) : Nat := (List.range 8).countP fun k => b.getLsbD k

/-- R1: the parity bit, which makes the number of 1s among data, mark and parity odd. -/
def parityBit (data : Byte) (mark : Bool) : Bool := (onesOf data + mark.toNat) % 2 == 0

/-- R1: the twelve bit times of a character; bit 0 is the start bit. -/
def transmitChar (data : Byte) (mark : Bool) : WireChar :=
  (data.zeroExtend 12 <<< 1) ||| ((BitVec.ofBool mark).zeroExtend 12 <<< 9) |||
    ((BitVec.ofBool (parityBit data mark)).zeroExtend 12 <<< 10) ||| (1#12 <<< 11)

/-- The samples of a character that arrives as it was sent, three equal samples to a position. -/
def cleanSamples (c : WireChar) : Samples :=
  (List.range 12).foldl (fun w k => if c.getLsbD k then w ||| (7#36 <<< (3 * k)) else w) 0#36

/-! ### Frames (R6, R7) -/

/-- R7: one step of the check's register. -/
def crcShift (crc : Word16) : Word16 :=
  if crc.getLsbD 15 then (crc <<< 1) ^^^ 0x1021#16 else crc <<< 1

/-- R7: the register advanced over one byte, most significant bit first. -/
def crcByte (crc : Word16) (b : Byte) : Word16 :=
  (List.range 8).foldl (fun c _ => crcShift c) (crc ^^^ (b.zeroExtend 16 <<< 8))

/-- R7: the check over a run of bytes, the register preset to all ones. -/
def crcOf (bytes : List Byte) : Word16 := bytes.foldl crcByte 0xFFFF#16

/-- The high and the low byte of a two-byte field. -/
def highByte (w : Word16) : Byte := w.extractLsb' 8 8
def lowByte (w : Word16) : Byte := w.extractLsb' 0 8

/-- R6: the bytes a frame's check covers. -/
def Frame.covered (f : Frame) : List Byte :=
  f.address :: f.kind :: BitVec.ofNat 8 f.payload.length :: f.payload

/-- R6, R7: the bytes of a frame after its address, with the check the transmitter appends. -/
def Frame.body (f : Frame) : List Byte :=
  f.kind :: BitVec.ofNat 8 f.payload.length :: f.payload ++
    [highByte (crcOf f.covered), lowByte (crcOf f.covered)]

/-- R1, R6: the characters of a frame on the wire; the mark bit is 1 on the address alone. -/
def Frame.wire (f : Frame) : List WireChar :=
  transmitChar f.address true :: f.body.map fun b => transmitChar b false

/-! ### Codes (section 11.3) -/

def ChannelStatus.ofCode : Nat → ChannelStatus
  | 0 => .valid
  | 1 => .openCircuit
  | 2 => .short
  | _ => .guarded

def ChannelStatus.code : ChannelStatus → Nat
  | .valid => 0 | .openCircuit => 1 | .short => 2 | .guarded => 3

def RejectReason.code : RejectReason → Nat
  | .openCircuit => 1 | .short => 2 | .guarded => 3 | .jump => 4

def ProbeState.code : ProbeState → Nat
  | .unmapped => 0 | .settling => 1 | .active => 2 | .suspect => 3 | .stale => 4 | .excluded => 5

def RangeFlag.code : RangeFlag → Nat
  | .none => 0 | .wetEnd => 1 | .dryEnd => 2

def TempSource.code : TempSource → Nat
  | .node => 0 | .zoneMeasured => 1 | .setpoint => 2 | .reference => 3

def NodeState.code : NodeState → Nat
  | .vacant => 0 | .online => 1 | .absent => 2

def ScanOutcome.code : ScanOutcome → Nat
  | .none => 0 | .committed => 1 | .noAnswer => 2 | .corrupt => 3 | .outOfOrder => 4 | .incomplete => 5

def PollPhase.code : PollPhase → Nat
  | .idle => 0 | .cycling => 1 | .draining => 2

def LineState.code : LineState → Nat
  | .halted => 0 | .running => 1 | .fault _ => 2

def DiscardReason.code : DiscardReason → Nat
  | .none => 0 | .charError => 1 | .truncated => 2 | .badLength => 3 | .badCheck => 4 | .full => 5

def StepKind.code : StepKind → Nat
  | .heatUp => 1 | .dry => 2 | .equalize => 3 | .condition => 4 | .cool => 5

def StepKind.ofCode : Nat → Option StepKind
  | 1 => some .heatUp
  | 2 => some .dry
  | 3 => some .equalize
  | 4 => some .condition
  | 5 => some .cool
  | _ => none

/-- R99: the stage sent for a step of each kind. -/
def StepKind.stage : StepKind → Stage
  | .heatUp => .heatUp | .dry => .dry | .equalize => .equalize | .condition => .condition | .cool => .cool

def Stage.code : Stage → Nat
  | .none => 0 | .heatUp => 1 | .dry => 2 | .equalize => 3 | .condition => 4 | .cool => 5

def Stage.ofCode : Nat → Option Stage
  | 0 => some .none
  | 1 => some .heatUp
  | 2 => some .dry
  | 3 => some .equalize
  | 4 => some .condition
  | 5 => some .cool
  | _ => Option.none

def StepCondition.code : StepCondition → Nat
  | .time => 0 | .mcBelow => 1 | .spreadBelow => 2

def StepCondition.ofCode : Nat → Option StepCondition
  | 0 => some .time
  | 1 => some .mcBelow
  | 2 => some .spreadBelow
  | _ => none

def ScheduleState.code : ScheduleState → Nat
  | .empty => 0 | .loaded => 1 | .running => 2 | .held => 3 | .ended => 4 | .aborted => 5

def ExitReason.code : ExitReason → Nat
  | .condition => 0 | .timeDone => 1 | .timeLimit => 2 | .skipped => 3

def ZoneMode.code : ZoneMode → Nat
  | .off => 0 | .auto => 1 | .manual => 2

def ZoneMode.ofCode : Nat → Option ZoneMode
  | 0 => some .off
  | 1 => some .auto
  | 2 => some .manual
  | _ => none

def DriverState.code : DriverState → Nat
  | .unknown => 0 | .answering => 1 | .silent => 2

def FrameOrigin.code : FrameOrigin → Nat
  | .idle => 0 | .schedule => 1 | .supervisor => 2

def FanDirection.code : FanDirection → Nat
  | .forward => 0 | .reverse => 1

def ExchangePhase.code : ExchangePhase → Nat
  | .sending => 0 | .waiting => 1

def FaultSource.kindCode : FaultSource → Nat
  | .probe _ => 0 | .node _ => 1 | .zone _ => 2 | .line _ => 3

/-- Section 8.2: the source number; line 0 is the Field Line and line 1 the Drive Line. -/
def FaultSource.number : FaultSource → Nat
  | .probe n => n.val
  | .node n => n.val
  | .zone n => n.val
  | .line .field => 0
  | .line .drive => 1

def FaultReason.code : FaultReason → Nat
  | .probeOpen => 1 | .probeShort => 2 | .probeGuard => 3 | .probeJump => 4 | .probeExcluded => 5
  | .nodeAbsent => 6 | .nodeMarginal => 7 | .nodeTempFault => 8 | .zoneNoAnswer => 9 | .zoneAlarm => 10
  | .lineStuck => 11

/-- R61: the fault a rejection raises. -/
def RejectReason.fault : RejectReason → FaultReason
  | .openCircuit => .probeOpen | .short => .probeShort | .guarded => .probeGuard | .jump => .probeJump

def NoticeKind.code : NoticeKind → Nat
  | .stepChange => 1 | .scheduleState => 2 | .faultRecorded => 3 | .faultLost => 4 | .zoneLag => 5
  | .envelopeClamp => 6

/-! ### Sets (section 11.3) -/

def Causes.code (c : Causes) : Nat :=
  c.manual.toNat + 2 * c.starved.toNat + 4 * c.fieldFault.toNat + 8 * c.driveFault.toNat

/-- R111: whether the hold-cause set is empty. -/
def Causes.isEmpty (c : Causes) : Bool := !(c.manual || c.starved || c.fieldFault || c.driveFault)

def ClampMarks.code (m : ClampMarks) : Nat := m.dry.toNat + 2 * m.depression.toNat + 4 * m.wet.toNat

/-- R127, R132: whether a frame carries any clamp mark. -/
def ClampMarks.any (m : ClampMarks) : Bool := m.dry || m.depression || m.wet

def Alarms.code (a : Alarms) : Nat :=
  a.overTemp.toNat + 2 * a.fanFail.toNat + 4 * a.waterLow.toNat + 8 * a.localControl.toNat

/-- R138: whether the alarm set is non-empty. -/
def Alarms.any (a : Alarms) : Bool := a.overTemp || a.fanFail || a.waterLow || a.localControl

/-- R138, R167: the alarm set of a STATUS byte; bits 7..4 are ignored. -/
def Alarms.ofByte (b : Byte) : Alarms :=
  { overTemp := b.getLsbD 0, fanFail := b.getLsbD 1, waterLow := b.getLsbD 2, localControl := b.getLsbD 3 }

end Sys2Proof.Machine
end

