-- ==== Sys2Proof/Machine/Operands.lean ====
section
/-! DEFINITION. Operand forms: the fields of frames as the part reads them (sections 11.3 to 11.6, R167), the
classes of Kiln addresses (R156) and the kind codes of the requests (section 11.2). -/

namespace Sys2Proof.Machine

/-! ### Fields -/

/-- An unsigned field of two bytes, most significant first (section 4.5). -/
def u16 (hi lo : Byte) : Nat := hi.toNat * 256 + lo.toNat

/-- A signed field of two bytes, two's complement (chapter 11). -/
def s16 (hi lo : Byte) : Int := (BitVec.ofNat 16 (u16 hi lo)).toInt

/-- The byte at offset `i` of a payload. -/
def byteAt (p : List Byte) (i : Nat) : Byte := p.getD i 0

def u16At (p : List Byte) (i : Nat) : Nat := u16 (byteAt p i) (byteAt p (i + 1))
def s16At (p : List Byte) (i : Nat) : Int := s16 (byteAt p i) (byteAt p (i + 1))

/-- `x` brought into `lo..hi`. -/
def clampInt (lo hi x : Int) : Int := if x < lo then lo else if hi < x then hi else x

/-- Section 4.2: the exact quotient rounded to the nearest whole, halves away from zero. -/
def roundDiv (n : Int) (d : Nat) : Int :=
  if 0 ≤ n then (2 * n + d) / (2 * d) else -((2 * (-n) + d) / (2 * d))

/-- Numbers `0 .. n - 1` as table indices. -/
def indexOf (n : Nat) (b : Byte) : Option (Fin n) := if h : b.toNat < n then some ⟨b.toNat, h⟩ else none

/-! ### Field Line frames (section 11.4) -/

/-- Section 11.2. -/
def kindScan : Byte := 0x21
def kindSample : Byte := 0x22
def kindSetpoint : Byte := 0x31
def kindStatus : Byte := 0x32
def kindDone : Byte := 0x70
def kindRefused : Byte := 0x71

/-- R30: the SCAN for a node, with the attempt's tag and mask. -/
def scanFrame (node : Fin 16) (tag : Byte) (mask : BitVec 16) : Frame :=
  { address := Config.nodeBase + BitVec.ofNat 8 node.val, kind := kindScan,
    payload := [tag, highByte mask, lowByte mask] }

/-- R32: whether a payload length is `4 + 3 × k` for `k` from 0 to 4. -/
def sampleLengthOk (n : Nat) : Bool := 4 ≤ n && n ≤ 16 && n % 3 == 1

/-- A SAMPLE part as received. -/
structure SamplePart where
  index   : Nat
  last    : Bool
  temp    : NodeTemp
  entries : List ChannelEntry
  deriving DecidableEq, Repr

/-- R32: a reported temperature, clamped into −400..1500 as it is staged; bit 6 of the part byte is its status. -/
def sampleTemp (p : List Byte) : NodeTemp :=
  { value := clampInt (-400) 1500 (s16At p 2), fault := (byteAt p 1).getLsbD 6 }

/-- Section 11.4: entry `j` of a part; bits 13..12 of its two bytes are ignored (R167). -/
def sampleEntry (p : List Byte) (j : Nat) : ChannelEntry :=
  { channel := (byteAt p (4 + 3 * j)).toNat
    code := u16At p (5 + 3 * j) % 4096
    status := ChannelStatus.ofCode (u16At p (5 + 3 * j) / 16384) }

/-- A part of `k` entries: the index in bits 1..0 of the part byte, LAST in bit 7. -/
def samplePart (p : List Byte) : SamplePart :=
  { index := (byteAt p 1).toNat % 4
    last := (byteAt p 1).getLsbD 7
    temp := sampleTemp p
    entries := (List.range ((p.length - 4) / 3)).map fun j => sampleEntry p j }

/-! ### Drive Line frames and ZONE SET (section 11.5) -/

/-- R138: a percentage above 100 is taken as 100. -/
def percent (b : Byte) : Nat := min b.toNat 100

/-- R138: the status a STATUS payload carries, from its offset 1. -/
def statusOf (p : List Byte) : DriverStatus :=
  { dry := s16At p 1, wet := s16At p 3, heat := percent (byteAt p 5), vent := percent (byteAt p 6),
    spray := percent (byteAt p 7), alarms := Alarms.ofByte (byteAt p 8) }

/-- R133, R167: the record a ZONE SET payload asks for, its stage code given; tag, origin and clamp marks are
ignored, and so are the setpoints when the setpoints-present flag is clear. -/
def manualOf (p : List Byte) (stage : Stage) : ManualRecord :=
  { fanRun := (byteAt p 1).getLsbD 1
    direction := if (byteAt p 1).getLsbD 2 then .reverse else .forward
    stage := stage
    setpoints := if (byteAt p 1).getLsbD 0 then some { dry := s16At p 3, wet := s16At p 5 } else none }

/-- R130, R133: whether a figure lies in −400..1500. -/
def temperatureInRange (x : Int) : Bool := decide (-400 ≤ x) && decide (x ≤ 1500)

/-- R133: the range check of a ZONE SET's setpoints. -/
def setpointsInRange : Option Setpoints → Bool
  | none => true
  | some sp => temperatureInRange sp.dry && temperatureInRange sp.wet

/-! ### Requests (section 11.6) -/

/-- Section 11.6, R68: the points of a LOAD_CURVE payload. -/
def curvePoints (p : List Byte) (count : Nat) : List CurvePoint :=
  (List.range count).map fun i => { code := u16At p (3 + 4 * i), mc := u16At p (5 + 4 * i) }

/-- R99: the conditions a kind may carry. -/
def conditionAllowed : StepKind → StepCondition → Bool
  | _, .time => true
  | .dry, .mcBelow => true
  | .equalize, .spreadBelow => true
  | _, _ => false

/-- R100: the record of a LOAD_STEP payload whose kind and condition are decoded; for a time step the threshold
field is passed over. -/
def stepRecordOf (p : List Byte) (kind : StepKind) (cond : StepCondition) : StepRecord :=
  { kind := kind, target := u16At p 2, depression := u16At p 4, condition := cond,
    threshold := if cond = .time then none else some (u16At p 7),
    minimum := u16At p 9, maximum := u16At p 11, rampRate := u16At p 13, fanInterval := u16At p 15 }

/-- R99, R100: the ranges of a step record. -/
def stepRecordOk (r : StepRecord) : Bool :=
  conditionAllowed r.kind r.condition &&
  200 ≤ r.target && r.target ≤ 1100 && r.depression ≤ 400 && r.rampRate ≤ 600 && r.fanInterval ≤ 1440 &&
  1 ≤ r.maximum && r.minimum ≤ r.maximum &&
  (if r.condition = .time then r.minimum == 0 else r.threshold.all (· ≤ 1200))

/-- R130: the envelope of a SET_ENVELOPE payload. -/
def envelopeOf (p : List Byte) : Envelope :=
  { dryFloor := s16At p 0, dryCeiling := s16At p 2, wetFloor := s16At p 4, wetCeiling := s16At p 6,
    depMin := s16At p 8, depMax := s16At p 10 }

/-- R130: every value within −400..1500. -/
def envelopeOk (e : Envelope) : Bool :=
  temperatureInRange e.dryFloor && temperatureInRange e.dryCeiling && temperatureInRange e.wetFloor &&
  temperatureInRange e.wetCeiling && temperatureInRange e.depMin && temperatureInRange e.depMax

/-! ### Kiln addresses (R156) -/

/-- R156: the station address. -/
def stationAddress (addr : BitVec 3) : Byte := 0x10#8 + addr.zeroExtend 8

/-- R156: the zone window base. -/
def windowBase (addr : BitVec 3) : Byte := 0x80#8 + (addr.zeroExtend 8 <<< 4)

/-- R156: the zones a window address names; base + 8 is all zones. -/
def windowTarget (addr : BitVec 3) (a : Byte) : Option ZoneTarget :=
  let k := a.toNat - (windowBase addr).toNat
  if a.toNat < (windowBase addr).toNat then none
  else if h : k < 8 then some (.one ⟨k, h⟩)
  else if k = 8 then some .all
  else none

/-- R156: whether a valid slot 1 matches an address. -/
def AddressSlot.matchesAddress (slot : AddressSlot) (a : Byte) : Bool :=
  slot.valid && (a &&& slot.mask) == (slot.address &&& slot.mask)

/-- R156: the class of an address, by the first test that matches. -/
def classify (addr : BitVec 3) (slot : AddressSlot) (a : Byte) : Option AddressClass :=
  if a = stationAddress addr then some .station
  else match windowTarget addr a with
    | some t => some (.window t)
    | none =>
      if a = 0xFF#8 then some .broadcast
      else if slot.matchesAddress a then some .slot1
      else none

/-- R158: whether a class makes a group frame. -/
def AddressClass.isGroup : AddressClass → Bool
  | .broadcast => true
  | .slot1 => true
  | _ => false

/-- Whether a class is the zone window. -/
def AddressClass.isWindow : AddressClass → Bool
  | .window _ => true
  | _ => false

/-! ### The catalogue (sections 9.7 and 11.2) -/

/-- Section 11.2: the request a kind code stands for. -/
def requestOfKind (k : Byte) : Option Instr :=
  match k.toNat with
  | 0x40 => some .identify
  | 0x41 => some .readLineStatus
  | 0x42 => some .setConfig
  | 0x43 => some .readConfig
  | 0x44 => some .setAddressSlot
  | 0x48 => some .loadCurve
  | 0x49 => some .readCurve
  | 0x4C => some .mapProbe
  | 0x4D => some .unmapProbes
  | 0x4E => some .excludeProbes
  | 0x4F => some .includeProbes
  | 0x50 => some .readProbe
  | 0x51 => some .readNode
  | 0x52 => some .fieldStart
  | 0x53 => some .fieldHalt
  | 0x54 => some .lineRestart
  | 0x57 => some .collectNotices
  | 0x58 => some .readEstimate
  | 0x59 => some .readRanking
  | 0x5C => some .loadStep
  | 0x5D => some .readStep
  | 0x5E => some .setStepCount
  | 0x60 => some .start
  | 0x61 => some .resume
  | 0x62 => some .hold
  | 0x63 => some .release
  | 0x64 => some .skip
  | 0x65 => some .abort
  | 0x66 => some .chargeReset
  | 0x67 => some .readSchedule
  | 0x68 => some .readHistory
  | 0x6A => some .setEnvelope
  | 0x6B => some .readEnvelope
  | 0x6C => some .setZoneMode
  | 0x6D => some .readZone
  | 0x6E => some .readFault
  | 0x6F => some .clearFaults
  | _ => none

/-- Section 11.2: the kind code of a request; none for a row that is no request of the catalogue. -/
def kindOfRequest : Instr → Option Byte
  | .identify => some 0x40
  | .readLineStatus => some 0x41
  | .setConfig => some 0x42
  | .readConfig => some 0x43
  | .setAddressSlot => some 0x44
  | .loadCurve => some 0x48
  | .readCurve => some 0x49
  | .mapProbe => some 0x4C
  | .unmapProbes => some 0x4D
  | .excludeProbes => some 0x4E
  | .includeProbes => some 0x4F
  | .readProbe => some 0x50
  | .readNode => some 0x51
  | .fieldStart => some 0x52
  | .fieldHalt => some 0x53
  | .lineRestart => some 0x54
  | .collectNotices => some 0x57
  | .readEstimate => some 0x58
  | .readRanking => some 0x59
  | .loadStep => some 0x5C
  | .readStep => some 0x5D
  | .setStepCount => some 0x5E
  | .start => some 0x60
  | .resume => some 0x61
  | .hold => some 0x62
  | .release => some 0x63
  | .skip => some 0x64
  | .abort => some 0x65
  | .chargeReset => some 0x66
  | .readSchedule => some 0x67
  | .readHistory => some 0x68
  | .setEnvelope => some 0x6A
  | .readEnvelope => some 0x6B
  | .setZoneMode => some 0x6C
  | .readZone => some 0x6D
  | .readFault => some 0x6E
  | .clearFaults => some 0x6F
  | .powerUp _ _ | .characterReceived _ _ | .breakCharacter _ | .spacingSpellStart _ | .spacingSpellEnd _
  | .gapLimitExpiry _ | .stuckLimitExpiry _ _ | .transmitStart _ | .transmitEnd _ | .replyTransmitEnd
  | .replyHandover | .cycleTimerExpiry | .scanAnswerTimeout | .drivePeriodExpiry | .driveAnswerTimeout
  | .minuteTick | .stepLimit | .fanReversal | .zoneSet | .unknownRequest | .kilnLineMarkingReturn => none

/-! ### Parameters (section 9.5) -/

/-- The position of a parameter; its id is this plus 1. -/
def Param.index : Param → Fin 23
  | .cyclePeriod => 0 | .scanAnswerTimeout => 1 | .retryLimit => 2 | .missLimit => 3 | .marginalLimit => 4
  | .settleCount => 5 | .rejectLimit => 6 | .jumpLimit => 7 | .filterWeight => 8 | .chargeDiscard => 9
  | .wetCount => 10 | .chargeMinimum => 11 | .zoneDiscard => 12 | .zoneMinimum => 13 | .starvationLimit => 14
  | .zoneLagLimit => 15 | .drivePeriod => 16 | .driveAnswerTimeout => 17 | .driveMissLimit => 18
  | .stuckUnit => 19 | .stuckCount => 20 | .attentionEnable => 21 | .groupControlEnable => 22

/-- Section 9.5: the lower limits, in the order of the ids. -/
def paramLows : Vector Nat 23 :=
  #v[10, 5, 0, 1, 1, 1, 1, 5, 1, 0, 1, 1, 0, 1, 1, 10, 5, 5, 1, 0, 1, 0, 0]

/-- Section 9.5: the upper limits, in the order of the ids. -/
def paramHighs : Vector Nat 23 :=
  #v[600, 100, 3, 15, 15, 8, 15, 300, 16, 8, 32, 32, 4, 16, 16, 300, 60, 100, 15, 3, 16, 1, 1]

/-- R164: the position a parameter id names; ids are 1..23. -/
def paramIndexOfId (id : Byte) : Option (Fin 23) :=
  if h : 1 ≤ id.toNat ∧ id.toNat ≤ 23 then some ⟨id.toNat - 1, by omega⟩ else none

/-- R18: the stuck unit of a code, in milliseconds. -/
def stuckUnitMs (code : Nat) : Nat := 2 ^ code

end Sys2Proof.Machine
end

