-- ==== Sys2Proof/Machine/Layout.lean ====
section
/-! DEFINITION. Layouts the part sends (section 11.6, R167): field encodings, the fill of absent fields, and the
records reported in replies. -/

namespace Sys2Proof.Machine

/-! ### Field types (section 11.6) -/

/-- One byte, unsigned. -/
def b1 (n : Nat) : List Byte := [BitVec.ofNat 8 n]

/-- Two bytes, most significant first. -/
def w2 (w : Word16) : List Byte := [highByte w, lowByte w]

/-- Two bytes, unsigned. -/
def b2 (n : Nat) : List Byte := w2 (BitVec.ofNat 16 n)

/-- Three bytes, unsigned. -/
def b3 (n : Nat) : List Byte := [BitVec.ofNat 8 (n / 65536), BitVec.ofNat 8 (n / 256), BitVec.ofNat 8 n]

/-- A signed figure in two bytes; one that two bytes cannot hold has no stated encoding (free value, log
entry 12). -/
def signed16 (x : Int) : Word16 :=
  if -32768 ≤ x ∧ x ≤ 32767 then BitVec.ofInt 16 x else Config.unstatedSigned16 x

/-- Two bytes, signed. -/
def i2 (x : Int) : List Byte := w2 (signed16 x)

/-- A yes-or-no field. -/
def flag1 (b : Bool) : List Byte := b1 b.toNat

/-- R167: fields that may be absent, all ones when they are. -/
def opt1 : Option Nat → List Byte
  | none => [0xFF]
  | some n => b1 n

def opt2 : Option Nat → List Byte
  | none => [0xFF, 0xFF]
  | some n => b2 n

def optWord : Option Word16 → List Byte
  | none => [0xFF, 0xFF]
  | some w => w2 w

def opt3 : Option Nat → List Byte
  | none => [0xFF, 0xFF, 0xFF]
  | some n => b3 n

/-- R167: a signed temperature, 0x8000 when absent. -/
def optTemp : Option Int → List Byte
  | none => [0x80, 0x00]
  | some x => i2 x

/-! ### Frames of section 11.5 -/

/-- The dry-bulb and wet-bulb of a frame, sent as 0 when absent (R167). -/
def setpointBytes : Option Setpoints → List Byte
  | none => [0, 0, 0, 0]
  | some sp => i2 sp.dry ++ i2 sp.wet

/-- The flag byte of a SETPOINT frame. -/
def setpointFlags (sp : Option Setpoints) (fanRun : Bool) (dir : FanDirection) (origin : Nat) (marks : Nat) : Byte :=
  BitVec.ofNat 8 (sp.isSome.toNat + 2 * fanRun.toNat + 4 * dir.code + 8 * origin + 32 * marks)

/-- R127: the seven bytes of a SETPOINT payload. -/
def SetpointFrame.payload (f : SetpointFrame) : List Byte :=
  f.tag :: setpointFlags f.setpoints f.fanRun f.direction f.origin.code f.marks.code ::
    b1 f.stage.code ++ setpointBytes f.setpoints

/-- R126, R127: the SETPOINT frame as the Drive Line unit sends it to a zone's driver. -/
def SetpointFrame.toFrame (f : SetpointFrame) (zone : Fin 8) : Frame :=
  { address := Config.driverBase + BitVec.ofNat 8 zone.val, kind := kindSetpoint, payload := f.payload }

/-! ### Records in replies -/

/-- Section 11.6: a manual record, six bytes. Of an absent one R167 sends the fields packed into the flags byte as 0
and fills the others, each alone in its bytes. -/
def manualBytes : Option ManualRecord → List Byte
  | none => [0x00] ++ opt1 none ++ optTemp none ++ optTemp none
  | some r => setpointFlags r.setpoints r.fanRun r.direction 0 0 :: b1 r.stage.code ++ setpointBytes r.setpoints

/-- Section 11.6: a zone's last status, eight bytes. -/
def statusBytes : Option DriverStatus → List Byte
  | none => optTemp none ++ optTemp none ++ [0xFF, 0xFF, 0xFF, 0xFF]
  | some st => i2 st.dry ++ i2 st.wet ++ b1 st.heat ++ b1 st.vent ++ b1 st.spray ++ b1 st.alarms.code

/-- Section 11.6: a node's last temperature: the value, then its status. -/
def nodeTempBytes : Option NodeTemp → List Byte
  | none => optTemp none ++ [0xFF]
  | some t => i2 t.value ++ flag1 t.fault

/-- Section 11.6: a notice, nine bytes. -/
def noticeBytes (n : Notice) : List Byte :=
  b1 n.kind.code ++ b1 n.subject ++ b3 n.minute ++ opt2 n.value1 ++ opt2 n.value2

/-- Section 11.6: a Wet Ranking entry, five bytes. -/
def rankBytes (r : RankEntry) : List Byte :=
  b1 r.probe.val ++ b2 r.mc ++ b1 r.zone.val ++ flag1 r.held

/-- Section 11.6: a Step History entry, ten bytes. -/
def historyBytes : Option HistoryEntry → List Byte
  | none => opt1 none ++ opt3 none ++ opt3 none ++ opt1 none ++ opt2 none
  | some h => b1 h.step ++ b3 h.entryMinute ++ b3 h.exitMinute ++ b1 h.reason.code ++ opt2 h.cmcAtExit

/-- R65, section 11.6: the 24 bytes of a probe entry. -/
def probeBytes (p : Fin 192) (e : ProbeEntry) : List Byte :=
  b1 p.val ++ b1 (e.state.code + 128 * e.manual.toNat) ++
  opt1 (e.mapping.map (·.node.val)) ++ opt1 (e.mapping.map (·.channel.val)) ++
  opt1 (e.mapping.map (·.zone.val)) ++ opt1 (e.mapping.map (·.profile.val)) ++
  opt2 (e.reading.map (·.code)) ++ opt1 (e.reading.map (·.status.code)) ++
  opt2 (e.conversion.map (·.corrected)) ++ opt2 (e.conversion.map (·.mc)) ++
  b1 (match e.conversion with | none => 0 | some c => c.flag.code + 16 * c.source.code) ++
  opt2 e.filtered ++ opt2 e.held ++ b1 e.progress ++ b1 e.streak ++
  opt1 (e.lastReject.map (·.code)) ++ opt3 e.lastAccepted

/-- R95, section 11.6: the 48 bytes of READ_ESTIMATE; lag flags in one byte, bit `z` for zone `z`. -/
def estimateBytes (e : Option Estimate) (lag : Vector Bool 8) : List Byte :=
  b1 (match e with | none => 0 | some x => if x.sufficient then 1 else 2) ++
  optWord (e.map (·.sequence)) ++ optWord (e.map (·.cycle)) ++ opt3 (e.map (·.uptime)) ++
  opt3 (e.bind (·.chargeMinute)) ++ opt1 (e.map (·.n)) ++ opt1 (e.map (·.heldCount)) ++
  opt2 (e.bind (·.chargeCmc)) ++ opt2 (e.bind (·.spread)) ++ opt2 (e.bind (·.wettest)) ++
  opt2 (e.bind (·.driest)) ++ opt2 (e.bind (·.mean)) ++
  (List.finRange 8).flatMap (fun z => opt1 (e.map (·.zoneCount[z]))) ++
  (List.finRange 8).flatMap (fun z => opt2 (e.bind (·.zoneCmc[z]))) ++
  [byteOfBits fun k => lag.toList.getD k false]

/-- R103: the fields of a step record after its index, the loaded flag first. -/
def stepBytes (r : Option StepRecord) : List Byte :=
  flag1 r.isSome ++ opt1 (r.map (·.kind.code)) ++ optTemp (r.map (Int.ofNat ·.target)) ++
  optTemp (r.map (Int.ofNat ·.depression)) ++ opt1 (r.map (·.condition.code)) ++
  opt2 (r.bind (·.threshold)) ++ opt2 (r.map (·.minimum)) ++ opt2 (r.map (·.maximum)) ++
  opt2 (r.map (·.rampRate)) ++ opt2 (r.map (·.fanInterval))

/-- R149: a fault record's detail; signed for NODE_TEMP_FAULT, all ones when absent. -/
def detailBytes : Option Int → List Byte
  | none => [0xFF, 0xFF]
  | some d => i2 d

/-- R149: the fields of a fault record, absent when it is free. -/
def faultBytes (r : Option FaultRecord) : List Byte :=
  flag1 r.isSome ++ opt1 (r.map (·.source.kindCode)) ++ opt1 (r.map (·.source.number)) ++
  opt1 (r.map (·.reason.code)) ++ opt3 (r.map (·.firstSeen)) ++ opt3 (r.map (·.lastSeen)) ++
  opt1 (r.map (·.repeats)) ++ detailBytes (r.bind (·.detail))

/-- R72, section 11.6: the fields of a profile in READ_CURVE. -/
def profileBytes (number : Fin 8) (p : Profile) (users : Nat) : List Byte :=
  b1 (number.val + 128 * p.loaded.toNat) ++ b1 p.kt ++ b1 p.points.length ++ b1 users ++
  p.points.flatMap fun q => b2 q.code ++ b2 q.mc

/-- R130: whether a pair of the envelope is enabled. -/
def pairEnabled (lower upper : Int) : Bool := decide (lower ≤ upper)

/-- R130: the state of each of the three pairs. -/
def envelopeStates (e : Envelope) : List Byte :=
  flag1 (pairEnabled e.dryFloor e.dryCeiling) ++ flag1 (pairEnabled e.wetFloor e.wetCeiling) ++
  flag1 (pairEnabled e.depMin e.depMax)

/-- R130: the six values. -/
def envelopeValues (e : Envelope) : List Byte :=
  i2 e.dryFloor ++ i2 e.dryCeiling ++ i2 e.wetFloor ++ i2 e.wetCeiling ++ i2 e.depMin ++ i2 e.depMax

end Sys2Proof.Machine
end

