-- ==== Sys2Proof/Machine/Ops.lean ====
section
/-! DEFINITION. Named operations over the state: table access, counters held at a top, the Notice Queue and the
Fault Record Set (chapter 8), the outputs, and the line units' slot, idle count and stuck monitor (chapter 1). -/

namespace Sys2Proof.Machine

/-- A counter that rises by 1 and is held at its top. -/
def rise (top n : Nat) : Nat := min (n + 1) top

/-! ### Table access -/

def State.unit (s : State) : PairLine → PairUnit
  | .field => s.field
  | .drive => s.drive

def State.setUnit (s : State) (l : PairLine) (u : PairUnit) : State :=
  match l with
  | .field => { s with field := u }
  | .drive => { s with drive := u }

def State.param (s : State) (p : Param) : Nat := s.params[p.index]

def State.node (s : State) (n : Fin 16) : NodeEntry := s.poller.nodes[n]

def State.setNode (s : State) (n : Fin 16) (e : NodeEntry) : State :=
  { s with poller := { s.poller with nodes := s.poller.nodes.set n e } }

def State.setStaging (s : State) (st : Option Staging) : State :=
  { s with poller := { s.poller with staging := st } }

def State.probe (s : State) (p : Fin 192) : ProbeEntry := s.probes[p]

def State.setProbe (s : State) (p : Fin 192) (e : ProbeEntry) : State := { s with probes := s.probes.set p e }

def State.zone (s : State) (z : Fin 8) : ZoneEntry := s.zones.table[z]

def State.setZone (s : State) (z : Fin 8) (e : ZoneEntry) : State :=
  { s with zones := { s.zones with table := s.zones.table.set z e } }

/-- R23: whether a probe entry is in a mapped state. -/
def ProbeEntry.isMapped (e : ProbeEntry) : Bool := e.state != .unmapped

/-! ### Derived views -/

/-- R126: a status is fresh when it is present and its age is 0, 1 or 2. -/
def ZoneEntry.fresh (z : ZoneEntry) : Bool := z.lastStatus.isSome && z.age ≤ 2

/-- Whether the schedule is RUNNING or HELD. -/
def Sequencer.engaged (q : Sequencer) : Bool := q.state == .running || q.state == .held

/-- The record of a step. -/
def Sequencer.stepAt (q : Sequencer) (i : Nat) : Option StepRecord := q.steps.toList.getD i none

/-- The record of the current step. -/
def Sequencer.currentStep (q : Sequencer) : Option StepRecord := q.stepIndex.bind q.stepAt

/-- R123: the published dry-bulb, in tenths, while the schedule is RUNNING or HELD. -/
def Sequencer.publishedDry (q : Sequencer) : Option Int :=
  if q.engaged then q.working.map (roundDiv · 10) else none

/-- R123: the published wet-bulb: the published dry-bulb less the step's depression, not below 0. -/
def Sequencer.publishedWet (q : Sequencer) : Option Int :=
  match q.publishedDry, q.currentStep with
  | some dry, some r => some (max 0 (dry - r.depression))
  | _, _ => none

/-- R155: the level of the ATTN output. -/
def State.attn (s : State) : Bool :=
  s.param .attentionEnable == 1 && (!s.notices.items.isEmpty || s.notices.lost)

/-- R15: whether the part drives the return pair. -/
def State.returnPairDriven (s : State) : Bool := s.kiln.sending.isSome

/-- R13: whether a unit drives its pair. -/
def TxSlot.isSending : TxSlot → Bool
  | .sending _ _ => true
  | _ => false

/-- Whether a line state is FAULT. -/
def LineState.isFault : LineState → Bool
  | .fault _ => true
  | _ => false

/-! ### Notices (R151) -/

/-- R151: a notice joins the back of the queue, or is dropped at a full queue, setting LOST. -/
def NoticeQueue.add (q : NoticeQueue) (n : Notice) : NoticeQueue :=
  if q.items.length < Config.noticeCapacity then { q with items := q.items ++ [n] } else { q with lost := true }

/-- R151: a notice raised at the current uptime minute. -/
def raiseNotice (kind : NoticeKind) (subject : Nat) (value1 value2 : Option Nat) (s : State) : State :=
  let n : Notice := { kind := kind, subject := subject, minute := s.uptime, value1 := value1, value2 := value2 }
  { s with notices := s.notices.add n }

/-! ### Fault records (R146, R147) -/

/-- R146: whether a present record has the source and reason of a fault. -/
def FaultRecord.isOf (r : FaultRecord) (source : FaultSource) (reason : FaultReason) : Bool :=
  r.source == source && r.reason == reason

/-- R146: the present record a fault collapses into. -/
def FaultSet.matching (f : FaultSet) (source : FaultSource) (reason : FaultReason) : Option (Fin 16) :=
  (List.finRange 16).find? fun i => f.records[i].any (·.isOf source reason)

/-- R147: the free record with the lowest number. -/
def FaultSet.lowestFree (f : FaultSet) : Option (Fin 16) :=
  (List.finRange 16).find? fun i => f.records[i].isNone

/-- R146: a record after a repeat of its fault. -/
def FaultRecord.repeated (r : FaultRecord) (minute : Nat) (detail : Option Int) : FaultRecord :=
  { r with repeats := rise 255 r.repeats, lastSeen := minute, detail := detail }

/-- R147: the record a new fault takes. -/
def newRecord (source : FaultSource) (reason : FaultReason) (detail : Option Int) (minute : Nat) : FaultRecord :=
  { source := source, reason := reason, firstSeen := minute, lastSeen := minute, repeats := 1, detail := detail }

/-- The fault set with record `i` replaced. -/
def State.setFault (s : State) (i : Fin 16) (r : Option FaultRecord) : State :=
  { s with faults := { s.faults with records := s.faults.records.set i r } }

/-- R147: a fault that finds no free record. -/
def loseFault (source : FaultSource) (reason : FaultReason) (s : State) : State :=
  if s.faults.overflow then s
  else raiseNotice .faultLost reason.code (some source.number) none
    { s with faults := { s.faults with overflow := true } }

/-- R147: a fault that matches no present record. -/
def recordFault (source : FaultSource) (reason : FaultReason) (detail : Option Int) (s : State) : State :=
  match s.faults.lowestFree with
  | some i => raiseNotice .faultRecorded i.val (some reason.code) (some source.number)
      (s.setFault i (some (newRecord source reason detail s.uptime)))
  | none => loseFault source reason s

/-- R146, R147: a fault raised into the Fault Record Set. -/
def raiseFault (source : FaultSource) (reason : FaultReason) (detail : Option Int) (s : State) : State :=
  match s.faults.matching source reason with
  | some i => s.setFault i (s.faults.records[i].map (·.repeated s.uptime detail))
  | none => recordFault source reason detail s

/-! ### Line units (R13, R14, R18) -/

/-- R18: the stuck limit read at the start of a spell, in milliseconds. -/
def State.stuckLimit (s : State) : Nat := stuckUnitMs (s.param .stuckUnit) * s.param .stuckCount

/-- R13: the idle count after an event that restarts it: it runs while the pair stands marking. -/
def PairUnit.idleRestarted (u : PairUnit) : Timer :=
  if u.pairSpacing then .stopped else .running Config.idleLimit

/-- R18: the stuck monitor's timing when a spell may start: at a pair that is spacing. -/
def PairUnit.spellAt (u : PairUnit) (limit : Nat) : Timer :=
  if u.pairSpacing then .running limit else .stopped

/-- R14: a frame handed to a unit's transmit slot; while the line is in FAULT the unit takes none. -/
def PairUnit.take (u : PairUnit) (f : Frame) : PairUnit :=
  if u.lineState.isFault then u else { u with slot := .waiting f }

end Sys2Proof.Machine
end

