-- ==== Sys2Proof/Machine/Handling.lean ====
section
/-! DEFINITION. The Management Handler (chapter 9): admission, KL_RDY, the taking and answering of frames, the
Kiln Line break and the replies of the Kiln unit. -/

namespace Sys2Proof.Machine

/-! ### The intake queue (R158, R159) -/

def State.setHandler (s : State) (h : Handler) : State := { s with handler := h }

/-- R158, R159: a frame admitted to the intake queue; a count of 6 deasserts KL_RDY. -/
def Handler.admitted (h : Handler) (f : KilnFrame) : Handler :=
  { h with intake := h.intake ++ [f], klRdy := h.klRdy && h.intake.length + 1 != Config.intakeHigh }

/-- R158: an admitted frame joins the queue, or is dropped at a full one with the discard reason FULL. -/
def admitFrame (f : KilnFrame) (s : State) : State :=
  if s.handler.intake.length < Config.intakeCapacity then s.setHandler (s.handler.admitted f)
  else { s with kiln := { s.kiln with lastDiscard := .full } }

/-- R158: the kinds a group frame may carry. -/
def groupKind (k : Byte) : Bool :=
  requestOfKind k == some .hold || requestOfKind k == some .release || requestOfKind k == some .abort

/-- R158: whether a frame of a class is admitted: a group frame of HOLD, RELEASE or ABORT with group control
enabled, and every frame for the station or the zone window. -/
def admits (s : State) (cls : AddressClass) (kind : Byte) : Bool :=
  !cls.isGroup || (groupKind kind && s.param .groupControlEnable == 1)

/-- R163: a frame noted as the one completed last. -/
def noteCompleted (f : KilnFrame) (s : State) : State :=
  s.setHandler { s.handler with completed := some { frame := f, discardBefore := s.kiln.lastDiscard } }

/-- R156, R158: a frame delivered on the Kiln Line. -/
def kilnDelivered (f : Frame) (noisy : Bool) (s : State) : State :=
  match classify s.straps.addr s.handler.slot1 f.address with
  | none => s
  | some cls =>
    if admits s cls f.kind then
      let kf := { cls := cls, address := f.address, kind := f.kind, payload := f.payload, noisy := noisy }
      admitFrame kf (noteCompleted kf s)
    else s

/-- R159, R160: the front frame taken; a count of 2 asserts KL_RDY. A break from now on is taken after the admission of
every frame completed before (R163). -/
def Handler.taken (h : Handler) (rest : List KilnFrame) : Handler :=
  { h with intake := rest, klRdy := h.klRdy || rest.length == Config.intakeLow, completed := none }

/-! ### Answers (R160 to R162) -/

/-- R161: the refusal reasons. -/
inductive RefusalReason where
  | badKind | badLength | range | busy | conflict | zoneAuto | zoneOff
  deriving DecidableEq, Repr

/-- Section 11.3. -/
def RefusalReason.code : RefusalReason → Nat
  | .badKind => 1 | .badLength => 2 | .range => 3 | .busy => 4 | .conflict => 5 | .zoneAuto => 6 | .zoneOff => 7

/-- What a request that passes its checks leaves: the state, the CLAMPED flag and the data of its reply. -/
structure Executed where
  state   : State
  clamped : Bool
  data    : List Byte
  deriving DecidableEq, Repr

/-- R162: the answer to a request: a reason, and then no block is changed, or what its execution leaves. -/
abbrev Answer := Except RefusalReason Executed

/-- A request that sets no CLAMPED flag. -/
def done (s : State) (data : List Byte) : Answer := .ok { state := s, clamped := false, data := data }

/-- R161, section 11.6: the payload of a DONE reply; NOISY is bit 0 of the flags and CLAMPED bit 1. -/
def donePayload (f : KilnFrame) (clamped : Bool) (data : List Byte) : List Byte :=
  f.kind :: BitVec.ofNat 8 (f.noisy.toNat + 2 * clamped.toNat) :: data

/-- R161, section 11.6: the payload of a REFUSED reply. -/
def refusedPayload (f : KilnFrame) (why : RefusalReason) : List Byte := [f.kind, BitVec.ofNat 8 why.code]

/-- R161: a reply addressed with the address of the frame it answers. -/
def replyTo (f : KilnFrame) (kind : Byte) (payload : List Byte) : Reply :=
  { frame := { address := f.address, kind := kind, payload := payload }, requestKind := f.kind }

/-- R160: the reply built into the reply place; a group frame gets none. -/
def placeReply (f : KilnFrame) (r : Reply) (s : State) : State :=
  if f.cls.isGroup then s else s.setHandler { s.handler with replyPlace := some r }

/-- R160, R161: a frame answered. -/
def answerFrame (f : KilnFrame) (a : Answer) (s : State) : State :=
  match a with
  | .ok x => placeReply f (replyTo f kindDone (donePayload f x.clamped x.data)) x.state
  | .error why => placeReply f (replyTo f kindRefused (refusedPayload f why)) s

/-- R160: the front frame, when it may be taken: the reply place is empty. -/
def State.front (s : State) : Option (KilnFrame × List KilnFrame) :=
  match s.handler.replyPlace, s.handler.intake with
  | none, f :: rest => some (f, rest)
  | _, _ => none

/-- R160: the front frame taken, executed and answered, when it may be taken and is one that `accepts` names; in
any other state the step's event does not happen (log entry 1). -/
def serveFront (accepts : KilnFrame → Bool) (body : KilnFrame → State → Answer) (s : State) : State :=
  match s.front with
  | none => s
  | some (f, rest) =>
    if accepts f then
      let t := s.setHandler (s.handler.taken rest)
      answerFrame f (body f t) t
    else s

/-- R160: whether a frame is a request of a kind: of the station, or of a group. -/
def isRequest (kind : Byte) (f : KilnFrame) : Bool := !f.cls.isWindow && f.kind == kind

/-- R160, R162: the execution of a request of a kind, its body given the payload. -/
def serveRequest (kind : Byte) (body : List Byte → State → Answer) (s : State) : State :=
  serveFront (isRequest kind) (fun f t => body f.payload t) s

/-! ### Kiln Line break (R163) -/

/-- R163: whether a reply answers a COLLECT_NOTICES; a frame of the zone window is no request (R160). -/
def answersCollect (s : State) (r : Reply) : Bool :=
  r.frame.address == stationAddress s.straps.addr && requestOfKind r.requestKind == some .collectNotices

/-- R163: the break as the Management Handler takes it. -/
def kilnBreak (s : State) : State :=
  let lost := s.handler.replyPlace.any (answersCollect s)
  { s with
    handler := { s.handler with intake := [], klRdy := true, replyPlace := none, completed := none }
    notices := { s.notices with lost := s.notices.lost || lost } }

/-- R163: a frame completed just before a break that was taken first, admitted into the emptied queue. At a full queue
the model had dropped it as FULL; with the break first it is not dropped, and the discard reason stands as it was. -/
def admitAfterBreak (c : CompletedFrame) (s : State) : State :=
  admitFrame c.frame { s with kiln := { s.kiln with lastDiscard := c.discardBefore } }

/-! ### The Kiln unit's replies (R15) -/

/-- R15: a reply begun on the return pair. -/
def sendingOf (f : Frame) : SendingReply := { frame := f, wire := f.wire }

/-- R15: a reply taken by the Kiln unit: sent at once, or put in the waiting place. -/
def KilnUnit.takeReply (k : KilnUnit) (f : Frame) : KilnUnit :=
  match k.sending with
  | none => { k with sending := some (sendingOf f) }
  | some _ => { k with waiting := some f }

/-- R160: the hand-over of the reply in the reply place once the waiting place is empty. -/
def handOverReply (s : State) : State :=
  match s.handler.replyPlace, s.kiln.waiting with
  | some r, none => { s with kiln := s.kiln.takeReply r.frame, handler := { s.handler with replyPlace := none } }
  | _, _ => s

/-- R15: the end of a reply; the waiting reply starts. -/
def KilnUnit.replySent (k : KilnUnit) : KilnUnit :=
  match k.sending with
  | none => k
  | some _ => { k with sending := k.waiting.map sendingOf, waiting := none }

end Sys2Proof.Machine
end

