-- ==== Sys2Proof/Machine/ZoneControl.lean ====
section
/-! DEFINITION. The Zone Controller (chapter 7): the frame build, the envelope, the Drive Queue and the drive
exchange. -/

namespace Sys2Proof.Machine

/-! ### The content of a frame (R127) -/

/-- R127: what a build forms before the clamp. -/
structure FrameContent where
  origin    : FrameOrigin
  fanRun    : Bool
  direction : FanDirection
  stage     : Stage
  setpoints : Option Setpoints
  deriving DecidableEq, Repr

/-- R127: an IDLE frame. -/
def idleContent : FrameContent :=
  { origin := .idle, fanRun := false, direction := .forward, stage := .none, setpoints := none }

/-- R127: a SUPERVISOR frame, as the manual record. -/
def manualContent (r : ManualRecord) : FrameContent :=
  { origin := .supervisor, fanRun := r.fanRun, direction := r.direction, stage := r.stage, setpoints := r.setpoints }

/-- R127, R128: the frame of an AUTO zone: a SCHEDULE frame while the schedule is RUNNING or HELD, an IDLE frame
otherwise. -/
def scheduleContent (q : Sequencer) : FrameContent :=
  match q.currentStep, q.publishedDry, q.publishedWet with
  | some r, some dry, some wet =>
    { origin := .schedule, fanRun := true, direction := q.fan, stage := r.kind.stage,
      setpoints := some { dry := dry, wet := wet } }
  | _, _, _ => idleContent

/-! ### The envelope (R131) -/

/-- A figure brought into an enabled pair; a disabled pair bounds nothing. -/
def clampPair (lower upper x : Int) : Int := if pairEnabled lower upper then clampInt lower upper x else x

/-- R131, stage 2: the wet-bulb that brings the depression into the depression pair. -/
def clampDepression (e : Envelope) (dry wet : Int) : Int := dry - clampPair e.depMin e.depMax (dry - wet)

/-- R131: the four stages, each on the values the stage before it left, with the marks. -/
def clampSetpoints (e : Envelope) (sp : Setpoints) : Setpoints × ClampMarks :=
  let dry := clampPair e.dryFloor e.dryCeiling sp.dry
  let wet2 := clampDepression e dry sp.wet
  let wet3 := clampPair e.wetFloor e.wetCeiling wet2
  let wet4 := min wet3 dry
  ({ dry := dry, wet := wet4 },
   { dry := dry != sp.dry, depression := wet2 != sp.wet, wet := wet3 != wet2 || wet4 != wet3 })

/-- R127, step 1: a frame without setpoints is not clamped and carries no marks. -/
def clampContent (e : Envelope) : Option Setpoints → Option Setpoints × ClampMarks
  | none => (none, noMarks)
  | some sp => (some (clampSetpoints e sp).1, (clampSetpoints e sp).2)

/-! ### The Drive Queue and the opening of an exchange (R136, R138) -/

/-- R138: with no exchange in flight, the line RUNNING and the queue not empty, the oldest frame is handed to the
transmit slot. -/
def openExchange (s : State) : State :=
  match s.zones.exchange, s.zones.queue with
  | none, q :: rest =>
    if s.drive.lineState = .running then
      { s with
        zones := { s.zones with queue := rest
                                exchange := some { entry := q, phase := .sending, timeout := .stopped } }
        drive := s.drive.take (q.frame.toFrame q.zone) }
    else s
  | _, _ => s

/-- R136: a new frame replaces the zone's pending frame in place, or joins the back. -/
def placeFrame (q : QueuedFrame) : List QueuedFrame → List QueuedFrame
  | [] => [q]
  | x :: xs => if x.zone = q.zone then q :: xs else x :: placeFrame q xs

def State.setQueue (s : State) (qs : List QueuedFrame) : State := { s with zones := { s.zones with queue := qs } }

/-- R136, R138: a frame enters the Drive Queue. The opening before it is the one R138 asks for as soon as its
conditions hold; it acts on the frames queued at power-up alone (log entry 7). -/
def enqueueFrame (q : QueuedFrame) (s : State) : State :=
  let s := openExchange s
  openExchange (s.setQueue (placeFrame q s.zones.queue))

/-! ### The frame build (R127) -/

/-- R127: the frame a build makes for a zone. -/
def builtFrame (s : State) (z : Fin 8) (c : FrameContent) : SetpointFrame :=
  { tag := (s.zone z).nextTag, origin := c.origin, fanRun := c.fanRun, direction := c.direction, stage := c.stage,
    setpoints := (clampContent s.zones.envelope c.setpoints).1, marks := (clampContent s.zones.envelope c.setpoints).2 }

/-- R132: the ENVELOPE_CLAMP notice of the first clamped frame of a run. -/
def clampNotice (z : Fin 8) (f : SetpointFrame) (clampedBefore : Bool) (s : State) : State :=
  if f.marks.any && !clampedBefore then
    raiseNotice .envelopeClamp z.val (some f.marks.code) (some f.origin.code) s
  else s

/-- R127: the build of a frame for a zone. -/
def buildFrame (z : Fin 8) (c : FrameContent) (s : State) : State :=
  let e := s.zone z
  let f := builtFrame s z c
  enqueueFrame { zone := z, frame := f, modeAtBuild := e.mode }
    (clampNotice z f e.clampedLast
      (s.setZone z { e with lastBuilt := f, nextTag := e.nextTag + 1, clampedLast := f.marks.any }))

/-- R128: the build of one zone at a schedule event. -/
def autoBuild (s : State) (z : Fin 8) : State :=
  if (s.zone z).mode = .auto then buildFrame z (scheduleContent s.sequencer) s else s

/-- R128: a schedule event reported to the Zone Controller: a build for each AUTO zone, in ascending order. -/
def tellZones (s : State) : State := (List.finRange 8).foldl autoBuild s

/-- R128, R137: the build of one zone at an expiry of the drive period timer. -/
def periodBuild (s : State) (z : Fin 8) : State :=
  match (s.zone z).mode, (s.zone z).manual with
  | .auto, _ => buildFrame z (scheduleContent s.sequencer) s
  | .manual, some r => buildFrame z (manualContent r) s
  | _, _ => s

/-- R137: a zone's status age after a drive period. -/
def ZoneEntry.aged (z : ZoneEntry) : ZoneEntry := if z.lastStatus.isSome then { z with age := rise 255 z.age } else z

/-- R137: the ages of all zones risen and the timer rearmed. -/
def ageZones (s : State) : State :=
  { s with zones := { s.zones with table := s.zones.table.map ZoneEntry.aged
                                   periodTimer := .running (s.param .drivePeriod) } }

/-- R137: an expiry of the drive period timer. The opening before the builds is that of log entry 7. -/
def drivePeriod (s : State) : State := (List.finRange 8).foldl periodBuild (openExchange (ageZones s))

/-! ### Modes and manual records (R129, R134, R135) -/

/-- R129, step 4: the build of a mode just entered. -/
def modeBuild (z : Fin 8) (m : ZoneMode) (s : State) : State :=
  match m with
  | .auto => buildFrame z (scheduleContent s.sequencer) s
  | .off => buildFrame z idleContent s
  | .manual => s

/-- R129: a zone entry after a change of mode. -/
def ZoneEntry.enter (e : ZoneEntry) (m : ZoneMode) : ZoneEntry :=
  { e with mode := m, manual := if e.mode = .manual then none else e.manual }

/-- R129: a change to another mode. The opening before it is that of log entry 7. -/
def setZoneMode (z : Fin 8) (m : ZoneMode) (s : State) : State :=
  if (s.zone z).mode = m then s
  else
    let s := openExchange s
    let s := s.setQueue (s.zones.queue.filter fun q => q.zone != z)
    modeBuild z m (s.setZone z ((s.zone z).enter m))

/-- R134: a manual record taken for a zone and the SUPERVISOR frame built from it. -/
def takeManual (z : Fin 8) (r : ManualRecord) (s : State) : State :=
  buildFrame z (manualContent r) (s.setZone z { s.zone z with manual := some r })

/-! ### The drive exchange (R138 to R141) -/

def State.setExchange (s : State) (x : Option DriveExchange) : State :=
  { s with zones := { s.zones with exchange := x } }

/-- The end of an exchange, at which the next frame may be handed over (R138). -/
def endExchange (s : State) : State := openExchange (s.setExchange none)

/-- R138: a zone entry with an answer taken. -/
def ZoneEntry.answered (e : ZoneEntry) (st : DriverStatus) : ZoneEntry :=
  { e with lastStatus := some st, age := 0, misses := 0, driver := .answering }

/-- R138: an answer taken. -/
def takeStatus (z : Fin 8) (st : DriverStatus) (s : State) : State :=
  let s := s.setZone z ((s.zone z).answered st)
  endExchange (if st.alarms.any then raiseFault (.zone z) .zoneAlarm (some st.alarms.code) s else s)

/-- R139: the miss of a zone whose exchange ends with no answer. -/
def zoneMiss (z : Fin 8) (s : State) : State :=
  let e := s.zone z
  let n := rise 15 e.misses
  if e.driver = .silent ∨ s.param .driveMissLimit ≤ n then
    raiseFault (.zone z) .zoneNoAnswer (some n) (s.setZone z { e with misses := n, driver := .silent })
  else s.setZone z { e with misses := n }

/-- R139: an exchange in WAITING ends with no answer; in any other case nothing does. -/
def noAnswer (s : State) : State :=
  match s.zones.exchange with
  | some x => if x.phase = .waiting then endExchange (zoneMiss x.entry.zone s) else s
  | none => s

/-- R138: whether a frame passes the second screen of an exchange. -/
def statusMatches (x : DriveExchange) (f : Frame) : Bool :=
  f.kind == kindStatus && f.payload.length == 9 && byteAt f.payload 0 == x.entry.frame.tag

/-- R138: a frame delivered on the Drive Line. -/
def driveDelivered (f : Frame) (s : State) : State :=
  match s.zones.exchange with
  | none => s
  | some x =>
    if x.phase = .sending then s
    else if f.address ≠ Config.driverBase + BitVec.ofNat 8 x.entry.zone.val then s
    else if statusMatches x f then takeStatus x.entry.zone (statusOf f.payload) s
    else noAnswer s

/-- R138: the end of the frame's transmission opens the answer window. -/
def driveSent (s : State) : State :=
  match s.zones.exchange with
  | some x => s.setExchange (some { x with phase := .waiting, timeout := .running (s.param .driveAnswerTimeout) })
  | none => s

/-- R140: whether an unsent frame is put back at the front of the Drive Queue. -/
def putsBack (s : State) (q : QueuedFrame) : Bool :=
  s.zones.queue.all (fun p => p.zone != q.zone) && (s.zone q.zone).mode == q.modeAtBuild

/-- R140, R141: the exchange in flight ends without an outcome: a frame not sent whole is put back or discarded, a
frame sent whole is neither. -/
def abandonExchange (s : State) : State :=
  match s.zones.exchange with
  | none => s
  | some x =>
    if x.phase = .sending ∧ putsBack s x.entry then (s.setQueue (x.entry :: s.zones.queue)).setExchange none
    else s.setExchange none

end Sys2Proof.Machine
end

