-- ==== Sys2Proof/Machine/Sequencing.lean ====
section
/-! DEFINITION. The Schedule Sequencer (chapter 6): hold causes, step entry and exit, advance, the ramp and the
minute tick. -/

namespace Sys2Proof.Machine

def State.setSequencer (s : State) (q : Sequencer) : State := { s with sequencer := q }

/-- R111: a SCHEDULE_STATE notice with the state and cause set as they stand. -/
def scheduleNotice (s : State) : State :=
  raiseNotice .scheduleState s.sequencer.state.code (some s.sequencer.causes.code) none s

/-! ### The hold-cause set (R107, R111 to R113) -/

/-- R111: the causes. -/
inductive HoldCause where
  | manual | starved | fieldFault | driveFault
  deriving DecidableEq, Repr

def Causes.has (c : Causes) : HoldCause → Bool
  | .manual => c.manual
  | .starved => c.starved
  | .fieldFault => c.fieldFault
  | .driveFault => c.driveFault

def Causes.put (c : Causes) (h : HoldCause) (b : Bool) : Causes :=
  match h with
  | .manual => { c with manual := b }
  | .starved => { c with starved := b }
  | .fieldFault => { c with fieldFault := b }
  | .driveFault => { c with driveFault := b }

/-- R111: a change of cause set and state: one SCHEDULE_STATE notice, and the Zone Controller told when the state
changed. -/
def changeHold (causes : Causes) (state : ScheduleState) (s : State) : State :=
  let t := scheduleNotice (s.setSequencer { s.sequencer with causes := causes, state := state })
  if s.sequencer.state = state then t else tellZones t

/-- R111: a cause added in RUNNING or HELD when absent. -/
def addCause (h : HoldCause) (s : State) : State :=
  if s.sequencer.engaged && !s.sequencer.causes.has h then
    changeHold (s.sequencer.causes.put h true) .held s
  else s

/-- R111: a cause removed in RUNNING or HELD when present; the last one gone, the schedule is RUNNING. -/
def removeCause (h : HoldCause) (s : State) : State :=
  if s.sequencer.engaged && s.sequencer.causes.has h then
    changeHold (s.sequencer.causes.put h false)
      (if (s.sequencer.causes.put h false).isEmpty then .running else .held) s
  else s

/-! ### The working setpoint (R121, R122) -/

/-- R122: a step's target in hundredths. -/
def StepRecord.goal (r : StepRecord) : Int := 10 * r.target

/-- R122: the working setpoint at step elapsed `m`: the basis moved toward the target by the lesser of the
distance and the truncated ramp; a ramp rate of 0 gives the target at once. -/
def rampAt (r : StepRecord) (basis : Int) (m : Nat) : Int :=
  if r.rampRate = 0 then r.goal
  else
    let move : Int := min ((r.goal - basis).natAbs : Int) ((r.rampRate * m / 6 : Nat) : Int)
    if basis ≤ r.goal then basis + move else basis - move

/-- R121, first choice: the measured dry-bulbs of the AUTO zones whose status is fresh. -/
def freshAutoDrys (s : State) : List Int :=
  (List.finRange 8).filterMap fun z =>
    if (s.zone z).mode = .auto ∧ (s.zone z).fresh then (s.zone z).lastStatus.map (·.dry) else none

/-- R121: the ramp basis at START and RESUME. -/
def startBasis (s : State) (r : StepRecord) : Int :=
  match freshAutoDrys s with
  | [] =>
    if pairEnabled s.zones.envelope.dryFloor s.zones.envelope.dryCeiling then 10 * s.zones.envelope.dryFloor
    else r.goal
  | d :: ds => 10 * roundDiv (d :: ds).sum (d :: ds).length

/-! ### Step entry and exit (R106, R117) -/

/-- R93: every lag flag cleared. -/
def clearLagFlags (s : State) : State :=
  { s with estimator := { s.estimator with lagFlags := Vector.replicate 8 false } }

/-- R106, step 3: whether an entry to a step removes STARVED. -/
def entryFrees (q : Sequencer) (r : StepRecord) : Bool := r.condition == .time && q.causes.starved

/-- R106, step 3: the cause set after an entry. -/
def entryCauses (q : Sequencer) (r : StepRecord) : Causes :=
  if entryFrees q r then { q.causes with starved := false } else q.causes

/-- R106, R111: the schedule state after an entry: RUNNING when the removal of STARVED empties the set. -/
def entryState (q : Sequencer) (r : StepRecord) : ScheduleState :=
  if entryFrees q r && (entryCauses q r).isEmpty then .running else q.state

/-- R106, steps 1 to 3: the Sequencer after entry to step `i` at elapsed `e`. -/
def Sequencer.entered (q : Sequencer) (i e : Nat) (r : StepRecord) (basis : Int) : Sequencer :=
  { q with
    stepIndex := some i, elapsed := e, entryMinute := q.chargeMinute, basis := some basis
    working := some (rampAt r basis e), streak := 0, causes := entryCauses q r, state := entryState q r }

/-- R106: entry to step `i` at elapsed `e` from a ramp basis. A change of state by the removal of STARVED is told
to the Zone Controller (R111) before the step change (log entry 11). -/
def enterStep (i e : Nat) (r : StepRecord) (basis : Int) (s : State) : State :=
  let t := clearLagFlags (s.setSequencer (s.sequencer.entered i e r basis))
  tellZones (if entryState s.sequencer r = s.sequencer.state then t else tellZones t)

/-- R117, step 1: the history entry of an exit from step `i`. -/
def exitEntry (s : State) (i : Nat) (reason : ExitReason) : HistoryEntry :=
  { step := i, entryMinute := s.sequencer.entryMinute, exitMinute := s.sequencer.chargeMinute, reason := reason,
    cmcAtExit := s.estimator.current.bind (·.chargeCmc) }

/-- R117, step 1: a history entry appended. -/
def appendHistory (h : HistoryEntry) (s : State) : State :=
  s.setSequencer { s.sequencer with history := s.sequencer.history ++ [h] }

/-- R117, step 2: the next step entered by advance or SKIP, with its notices. -/
def advanceTo (i : Nat) (r : StepRecord) (reason : ExitReason) (s : State) : State :=
  let t := raiseNotice .stepChange (i + 1) (some i) (some reason.code)
    (enterStep (i + 1) 0 r (s.sequencer.working.getD r.goal) s)
  if entryFrees s.sequencer r then scheduleNotice t else t

/-- R117, step 3: the end of the schedule at the exit of step `i`. -/
def endSchedule (i : Nat) (reason : ExitReason) (s : State) : State :=
  tellZones (scheduleNotice (raiseNotice .stepChange 255 (some i) (some reason.code)
    (s.setSequencer { s.sequencer with state := .ended, causes := noCauses })))

/-- R117: the exit of the current step. Without a current step, or without a record for the next (states no run
reaches, R102), nothing more happens (log entry 17). -/
def exitStep (reason : ExitReason) (s : State) : State :=
  match s.sequencer.stepIndex with
  | none => s
  | some i =>
    let t := appendHistory (exitEntry s i reason) s
    if i + 1 < s.sequencer.stepCount then
      match s.sequencer.stepAt (i + 1) with
      | some r => advanceTo i r reason t
      | none => t
    else endSchedule i reason t

/-! ### Estimates (R113, R116) -/

/-- R99: whether a step is a condition step. -/
def StepRecord.isCondition (r : StepRecord) : Bool := r.condition != .time

def State.setStreak (s : State) (n : Nat) : State := s.setSequencer { s.sequencer with streak := n }

/-- R113: the starvation streak and STARVED, on an Estimate received in a condition step. -/
def updateStarvation (sufficient : Bool) (s : State) : State :=
  if sufficient then removeCause .starved (s.setStreak 0)
  else
    let n := rise 255 s.sequencer.streak
    let t := s.setStreak n
    if s.param .starvationLimit ≤ n then addCause .starved t else t

/-- R116: whether an Estimate meets a step's condition. -/
def conditionMet (r : StepRecord) (e : Estimate) : Bool :=
  match r.condition, r.threshold with
  | .mcBelow, some t => e.chargeCmc.any (· ≤ t)
  | .spreadBelow, some t => e.spread.any (· ≤ t)
  | _, _ => false

/-- R116, first stage: on a time step, and outside RUNNING and HELD, nothing. -/
def starvationStage (e : Estimate) (s : State) : State :=
  if s.sequencer.engaged && s.sequencer.currentStep.any (·.isCondition) then updateStarvation e.sufficient s else s

/-- R116, second stage: whether the condition is tested and met. -/
def advanceDue (e : Estimate) (q : Sequencer) : Bool :=
  q.state == .running && q.currentStep.any fun r => r.isCondition && decide (r.minimum ≤ q.elapsed) && conditionMet r e

/-- R116: an Estimate handed to the Sequencer, in two stages. A first stage that removes STARVED and a second that exits
the step each raise the notices of their own rules: where the exit ends the schedule, SCHEDULE_STATE is raised twice, for
RUNNING and then for ENDED. That each stage is an event of its own under R111 is the model's choice (log entry 29). -/
def takeEstimate (e : Estimate) (s : State) : State :=
  let t := starvationStage e s
  if advanceDue e t.sequencer then exitStep .condition t else t

/-! ### The minute tick (R114, R115, R122, R124, R144) -/

/-- R115: the reason of an exit on the limit. -/
def limitReason (r : StepRecord) : ExitReason := if r.isCondition then .timeLimit else .timeDone

/-- R114: whether the next tick makes the current step exit. -/
def limitTick (q : Sequencer) : Bool :=
  q.state == .running && q.currentStep.any fun r => decide (r.maximum ≤ q.elapsed + 1)

/-- R124: whether a step's fan reversal falls at an elapsed count. -/
def fanFalls (r : StepRecord) (elapsed : Nat) : Bool := r.fanInterval != 0 && elapsed % r.fanInterval == 0

/-- R124: whether the next tick changes the fan direction. -/
def fanTick (q : Sequencer) : Bool :=
  q.state == .running && !limitTick q && q.currentStep.any fun r => fanFalls r (q.elapsed + 1)

def FanDirection.other : FanDirection → FanDirection
  | .forward => .reverse
  | .reverse => .forward

/-- R114: the charge minute risen. -/
def Sequencer.chargeTicked (q : Sequencer) : Sequencer := { q with chargeMinute := rise Config.chargeTop q.chargeMinute }

/-- R114: the charge minute and the step elapsed risen. -/
def Sequencer.ticked (q : Sequencer) : Sequencer := { q.chargeTicked with elapsed := q.elapsed + 1 }

/-- R122: the working setpoint computed at the present elapsed count. -/
def Sequencer.ramped (q : Sequencer) (r : StepRecord) : Sequencer :=
  { q with working := some (rampAt r (q.basis.getD r.goal) q.elapsed) }

/-- R124: the fan reversal test at the present elapsed count; a change is told to the Zone Controller. -/
def fanTest (r : StepRecord) (s : State) : State :=
  if fanFalls r s.sequencer.elapsed then
    tellZones (s.setSequencer { s.sequencer with fan := s.sequencer.fan.other })
  else s

/-- R114: a tick in RUNNING, the counters already risen. -/
def runningTick (s : State) : State :=
  match s.sequencer.currentStep with
  | none => s
  | some r =>
    if r.maximum ≤ s.sequencer.elapsed then exitStep (limitReason r) s
    else fanTest r (s.setSequencer (s.sequencer.ramped r))

/-- R144: the uptime minute counter risen. -/
def uptimeTick (s : State) : State := { s with uptime := rise Config.uptimeTop s.uptime }

/-- R114, R144: one minute tick, in one act. -/
def minuteTick (s : State) : State :=
  let t := uptimeTick s
  match t.sequencer.state with
  | .running => runningTick (t.setSequencer t.sequencer.ticked)
  | .held => t.setSequencer t.sequencer.chargeTicked
  | .empty | .loaded | .ended | .aborted => t

/-! ### START, RESUME and Charge Reset (R104, R105, R110) -/

/-- R104: the cause set formed from the Drive Line. -/
def startCauses (s : State) : Causes := { noCauses with driveFault := s.drive.lineState.isFault }

/-- R104: the schedule state START leaves. -/
def startState (s : State) : ScheduleState := if (startCauses s).isEmpty then .running else .held

/-- R104, R105: the schedule started at step `i` with elapsed `e`. -/
def startSchedule (i e : Nat) (r : StepRecord) (s : State) : State :=
  scheduleNotice (enterStep i e r (startBasis s r)
    (s.setSequencer { s.sequencer with
      chargeMinute := 0, streak := 0, fan := .forward, history := []
      causes := startCauses s, state := startState s }))

/-- R110: the Sequencer after Charge Reset. -/
def Sequencer.chargeReset (q : Sequencer) : Sequencer :=
  { q with
    state := if q.stepCount = 0 then .empty else .loaded
    history := [], elapsed := 0, entryMinute := 0, chargeMinute := 0, stepIndex := none, basis := none
    working := none, causes := noCauses, streak := 0, fan := .forward }

end Sys2Proof.Machine
end

