-- ==== Sys2Proof/Machine/Estimating.lean ====
section
/-! DEFINITION. The Charge Estimator (chapter 5): contributors, Wet Ranking, charge and zone figures, zone lag and
the hand-over. -/

namespace Sys2Proof.Machine

/-- R84: the contribution of a probe: its filtered MC, with the HELD mark in SUSPECT; none outside ACTIVE and
SUSPECT. -/
def contribution (p : Fin 192) (e : ProbeEntry) : Option RankEntry :=
  match e.state, e.filtered, e.mapping with
  | .active, some f, some m => some { probe := p, mc := f, zone := m.zone, held := false }
  | .suspect, some f, some m => some { probe := p, mc := f, zone := m.zone, held := true }
  | _, _, _ => none

/-- R84: the contributors, in ascending probe number. -/
def contributors (s : State) : List RankEntry := (List.finRange 192).filterMap fun p => contribution p (s.probe p)

/-- R85: a contributor of a higher probe number placed into a ranking: behind every figure not below its own. -/
def placeRank (x : RankEntry) : List RankEntry → List RankEntry
  | [] => [x]
  | y :: ys => if y.mc < x.mc then x :: y :: ys else y :: placeRank x ys

/-- R85: the Wet Ranking of contributors given in ascending probe number. -/
def rankOf (xs : List RankEntry) : List RankEntry := xs.foldl (fun r x => placeRank x r) []

/-- R86, R87: the mean of figures, rounded to the nearest whole with halves away from zero. -/
def meanOf (xs : List Nat) : Nat := (roundDiv ((xs.sum : Nat) : Int) xs.length).toNat

/-- R86: the figures at ranks `d` up to `d + min w (n - d) - 1`. -/
def windowOf (d w : Nat) (xs : List Nat) : List Nat := (xs.drop d).take w

/-- R86, R88: the CMC of ranked figures with a discard, a wet count and a minimum; absent when fewer than the
minimum remain after the discard. -/
def cmcOf (d w least : Nat) (xs : List Nat) : Option Nat :=
  if xs.length < least + d then none else some (meanOf (windowOf d w xs))

/-- R87: the spread of a SUFFICIENT Estimate: the figure at rank `d` less the last. -/
def spreadOf (d least : Nat) (xs : List Nat) : Option Nat :=
  if xs.length < least + d then none
  else match xs[d]?, xs.getLast? with
    | some a, some b => some (a - b)
    | _, _ => none

/-- R88: the figures of a zone's contributors, in ranking order. -/
def zoneFigures (r : List RankEntry) (z : Fin 8) : List Nat := (r.filter (·.zone == z)).map (·.mc)

/-- R83 to R90: the Estimate formed from the Probe Table and the parameters as they stand. -/
def formEstimate (s : State) : Estimate :=
  let r := rankOf (contributors s)
  let figures := r.map (·.mc)
  let d := s.param .chargeDiscard
  let least := s.param .chargeMinimum
  { sequence := s.estimator.nextSequence
    cycle := s.poller.currentCycle.getD 0
    uptime := s.uptime
    chargeMinute := if s.sequencer.engaged then some s.sequencer.chargeMinute else none
    sufficient := decide (least + d ≤ r.length)
    n := r.length
    heldCount := r.countP (·.held)
    chargeCmc := cmcOf d (s.param .wetCount) least figures
    spread := spreadOf d least figures
    wettest := figures.head?
    driest := figures.getLast?
    mean := if r.isEmpty then none else some (meanOf figures)
    zoneCount := Vector.ofFn fun z => (zoneFigures r z).length
    zoneCmc := Vector.ofFn fun z => cmcOf (s.param .zoneDiscard) (s.param .wetCount) (s.param .zoneMinimum) (zoneFigures r z)
    ranking := r }

/-- R92: whether a zone is found lagging. -/
def lagging (s : State) (e : Estimate) (z : Fin 8) : Bool :=
  match e.zoneCmc[z], e.chargeCmc with
  | some zc, some cc => decide (cc + s.param .zoneLagLimit < zc)
  | _, _ => false

/-- R92: the check of one zone: a lagging zone with its flag clear sets the flag and raises ZONE_LAG. -/
def checkZoneLag (e : Estimate) (s : State) (z : Fin 8) : State :=
  if lagging s e z && !s.estimator.lagFlags[z] then
    raiseNotice .zoneLag z.val e.zoneCmc[z] e.chargeCmc
      { s with estimator := { s.estimator with lagFlags := s.estimator.lagFlags.set z true } }
  else s

/-- R92: the zone lag check, made when the schedule is RUNNING and the Estimate SUFFICIENT. -/
def zoneLagCheck (e : Estimate) (s : State) : State :=
  if s.sequencer.state = .running ∧ e.sufficient then (List.finRange 8).foldl (checkZoneLag e) s else s

/-- R83: the new Estimate in place of the previous one, the next sequence advanced. -/
def storeEstimate (e : Estimate) (s : State) : State :=
  { s with estimator := { s.estimator with current := some e, nextSequence := s.estimator.nextSequence + 1 } }

/-- R83, R91: a cycle close: the Estimate formed, the lag check, and the hand-over to the Sequencer, one act. -/
def closeEstimate (s : State) : State :=
  let e := formEstimate s
  takeEstimate e (zoneLagCheck e (storeEstimate e s))

end Sys2Proof.Machine
end

