-- ==== Sys2Proof/Machine/Conversion.lean ====
section
/-! DEFINITION. The Conversion Engine (chapter 4): choice of temperature, correction of the code, interpolation. -/

namespace Sys2Proof.Machine

/-- R74, source 1: a node's last temperature when present with status VALID. -/
def NodeEntry.validTemp (n : NodeEntry) : Option Int :=
  n.lastTemp.bind fun t => if t.fault then none else some t.value

/-- R74, source 2: a zone's last measured dry-bulb when its status is fresh. -/
def ZoneEntry.freshDry (z : ZoneEntry) : Option Int := if z.fresh then z.lastStatus.map (·.dry) else none

/-- R74: the first temperature source that can be used, and its temperature before the clamp. -/
def chooseTemp (s : State) (m : Mapping) : TempSource × Int :=
  match (s.node m.node).validTemp with
  | some t => (.node, t)
  | none =>
    match (s.zone m.zone).freshDry with
    | some t => (.zoneMeasured, t)
    | none =>
      match s.sequencer.publishedDry with
      | some t => (.setpoint, t)
      | none => (.reference, 200)

/-- R77: the corrected code for a temperature already clamped. -/
def correctCode (kt : Nat) (t : Int) (code : Nat) : Nat :=
  (clampInt 0 4095 (code + roundDiv (kt * (t - 200)) 100)).toNat

/-- R80: the figure on the segment from `a` to `b`, at distance `l - a.code` along it. -/
def onSegment (a b : CurvePoint) (l : Nat) : Nat :=
  ((a.mc : Int) + roundDiv (((b.mc : Int) - a.mc) * ((l : Int) - a.code)) (b.code - a.code)).toNat

/-- R79, R80: the figure of a corrected code at or above the code of `a`, on the curve from `a` onward. -/
def alongCurve (l : Nat) (a : CurvePoint) : List CurvePoint → Nat
  | [] => a.mc
  | b :: rest => if l < b.code then onSegment a b l else alongCurve l b rest

/-- R79, R80: the MC and range flag of a corrected code. A profile without points has no stated figure (free
value, log entry 13). -/
def curveFigure (points : List CurvePoint) (l : Nat) : Nat × RangeFlag :=
  match points with
  | [] => (Config.unstatedMc l, .none)
  | a :: rest =>
    if l < a.code then (a.mc, .wetEnd)
    else if (rest.getLastD a).code < l then ((rest.getLastD a).mc, .dryEnd)
    else (alongCurve l a rest, .none)

/-- R75 to R81: the conversion of a code on a profile at a temperature. -/
def convertOn (p : Profile) (source : TempSource) (t : Int) (code : Nat) : Conversion :=
  let l := correctCode p.kt (clampInt 0 1200 t) code
  { corrected := l, mc := (curveFigure p.points l).1, flag := (curveFigure p.points l).2, source := source }

/-- R73: the conversion the engine hands back for a probe's reading, from the sources as they stand (R76). -/
def State.convert (s : State) (m : Mapping) (code : Nat) : Conversion :=
  convertOn s.curves[m.profile] (chooseTemp s m).1 (chooseTemp s m).2 code

end Sys2Proof.Machine
end

