-- ==== Sys2Proof/Machine/ProbeTable.lean ====
section
/-! DEFINITION. The Probe Table (chapter 3): acceptance, rejection and filtering of readings, and what a node's
absence and return, inclusion and Charge Reset do to an entry. -/

namespace Sys2Proof.Machine

/-- R62: a filter update of `f` with the accepted reading `m` and the filter weight `k`. -/
def filterUpdate (f m k : Nat) : Nat :=
  let d : Int := (m : Int) - f
  let step := roundDiv (d * k) 16
  let least := if step = 0 then d.sign else step
  ((f : Int) + least).toNat

/-- R55: what a judgement reads at its moment: jump limit, settle count, reject limit, filter weight and the
uptime minute. -/
structure JudgeRules where
  jump   : Nat
  settle : Nat
  reject : Nat
  weight : Nat
  minute : Nat
  deriving DecidableEq, Repr

/-- R55: the parameters as they stand. -/
def State.judgeRules (s : State) : JudgeRules :=
  { jump := s.param .jumpLimit, settle := s.param .settleCount, reject := s.param .rejectLimit,
    weight := s.param .filterWeight, minute := s.uptime }

/-- R57, R58: whether `m` lies within `j` of a figure that is present. -/
def within (j m : Nat) : Option Nat → Bool
  | none => false
  | some f => decide (m ≤ f + j) && decide (f ≤ m + j)

/-- A rejection: its reason and the detail of its fault (R61). -/
structure Rejection where
  reason : RejectReason
  detail : Nat
  deriving DecidableEq, Repr

/-- An entry after a judgement, with the faults it raises, in order. -/
abbrev Judged := ProbeEntry × List (FaultReason × Nat)

/-- R59, R61: the faults of a rejection, PROBE_EXCLUDED after the rejection's own. -/
def Rejection.faults (r : Rejection) (excluded : Bool) : List (FaultReason × Nat) :=
  (r.reason.fault, r.detail) :: if excluded then [(.probeExcluded, r.reason.code)] else []

/-- R56: an accepted reading in SETTLING. -/
def settleAccept (j : JudgeRules) (e : ProbeEntry) (m : Nat) : ProbeEntry :=
  { e with
    filtered := some (match e.filtered with | none => m | some f => filterUpdate f m j.weight)
    progress := rise 8 e.progress
    streak := 0
    lastAccepted := some j.minute
    state := if j.settle ≤ rise 8 e.progress then .active else .settling }

/-- R56, R59: a rejection in SETTLING. -/
def settleReject (j : JudgeRules) (e : ProbeEntry) (r : Rejection) : Judged :=
  let out := decide (j.reject ≤ rise 15 e.streak)
  ({ e with progress := 0, streak := rise 15 e.streak, lastReject := some r.reason,
            state := if out then .excluded else .settling }, r.faults out)

/-- R57, R58: an accepted reading in ACTIVE, or a return in SUSPECT. -/
def activeAccept (j : JudgeRules) (e : ProbeEntry) (m : Nat) : ProbeEntry :=
  { e with filtered := e.filtered.map fun f => filterUpdate f m j.weight
           streak := 0, lastAccepted := some j.minute, state := .active }

/-- R57, R58: the held rejected MC a rejection leaves: the rejected MC of a JUMP, absent otherwise. -/
def Rejection.held (r : Rejection) : Option Nat := if r.reason = .jump then some r.detail else none

/-- R57, R59: a rejection in ACTIVE. -/
def activeReject (j : JudgeRules) (e : ProbeEntry) (r : Rejection) : Judged :=
  let out := decide (j.reject ≤ 1)
  ({ e with streak := 1, held := r.held, lastReject := some r.reason,
            state := if out then .excluded else .suspect }, r.faults out)

/-- R58: a return of a SUSPECT entry. -/
def suspectReturn (j : JudgeRules) (e : ProbeEntry) (m : Nat) : ProbeEntry :=
  { activeAccept j e m with held := none }

/-- R58: a re-level. -/
def suspectRelevel (j : JudgeRules) (e : ProbeEntry) (m : Nat) : ProbeEntry :=
  { e with filtered := some m, streak := 0, held := none, lastAccepted := some j.minute, state := .active }

/-- R58, R59: a rejection in SUSPECT. -/
def suspectReject (j : JudgeRules) (e : ProbeEntry) (r : Rejection) : Judged :=
  let out := decide (j.reject ≤ rise 15 e.streak)
  ({ e with streak := rise 15 e.streak, held := r.held, lastReject := some r.reason,
            state := if out then .excluded else .suspect }, r.faults out)

/-- R56 to R58, R60: a VALID reading converted to `m`, judged by the entry's state. -/
def judgeValid (j : JudgeRules) (e : ProbeEntry) (m : Nat) : Judged :=
  match e.state with
  | .settling => (settleAccept j e m, [])
  | .active =>
    if within j.jump m e.filtered then (activeAccept j e m, [])
    else activeReject j e { reason := .jump, detail := m }
  | .suspect =>
    if within j.jump m e.filtered then (suspectReturn j e m, [])
    else if within j.jump m e.held then (suspectRelevel j e m, [])
    else suspectReject j e { reason := .jump, detail := m }
  | .excluded => (e, [])
  | .unmapped => (e, [])
  | .stale => (e, [])

/-- R56 to R58, R60: a reading rejected for its status, judged by the entry's state. -/
def judgeRejected (j : JudgeRules) (e : ProbeEntry) (r : Rejection) : Judged :=
  match e.state with
  | .settling => settleReject j e r
  | .active => activeReject j e r
  | .suspect => suspectReject j e r
  | .excluded => (e, [])
  | .unmapped => (e, [])
  | .stale => (e, [])

/-- R55: the reason a status other than VALID rejects for. -/
def ChannelStatus.rejects : ChannelStatus → Option RejectReason
  | .valid => none
  | .openCircuit => some .openCircuit
  | .short => some .short
  | .guarded => some .guarded

/-- R53, R55: whether an entry in this state takes readings. -/
def ProbeState.receives : ProbeState → Bool
  | .settling => true
  | .active => true
  | .suspect => true
  | .excluded => true
  | .unmapped => false
  | .stale => false

/-- R55: the entry after recording and judging a reading. `convert` is the Conversion Engine's answer, asked for
on a VALID reading alone. -/
def ProbeEntry.takeReading (e : ProbeEntry) (j : JudgeRules) (r : Reading) (convert : Conversion) : Judged :=
  match r.status.rejects with
  | none => judgeValid j { e with reading := some r, conversion := some convert } convert.mc
  | some why => judgeRejected j { e with reading := some r, conversion := none } { reason := why, detail := r.code }

/-- R61: the faults of a judgement raised for a probe, in order. -/
def raiseProbeFaults (p : Fin 192) (fs : List (FaultReason × Nat)) (s : State) : State :=
  fs.foldl (fun s f => raiseFault (.probe p) f.1 (some f.2) s) s

/-- R55: a reading handed to a probe entry. -/
def takeReading (p : Fin 192) (r : Reading) (s : State) : State :=
  match (s.probe p).mapping with
  | none => s
  | some m =>
    if (s.probe p).state.receives then
      let judged := (s.probe p).takeReading s.judgeRules r (s.convert m r.code)
      raiseProbeFaults p judged.2 (s.setProbe p judged.1)
    else s

/-- R34: the entry that holds a node and channel pair. -/
def probeAt (s : State) (n c : Fin 16) : Option (Fin 192) :=
  (List.finRange 192).find? fun p =>
    (s.probe p).isMapped && (s.probe p).mapping.any fun m => m.node == n && m.channel == c

/-- R52, R53, R66: an entry put back into SETTLING with its filter, held MC, progress and streak cleared. -/
def ProbeEntry.resettled (e : ProbeEntry) : ProbeEntry :=
  { e with state := .settling, manual := false, filtered := none, held := none, progress := 0, streak := 0 }

/-- Whether an entry names a node. -/
def ProbeEntry.onNode (e : ProbeEntry) (n : Fin 16) : Bool := e.mapping.any fun m => m.node == n

/-- R53: an entry when its node moves from ONLINE to ABSENT. -/
def ProbeEntry.departed (e : ProbeEntry) : ProbeEntry :=
  match e.state with
  | .settling | .active | .suspect => { e with state := .stale }
  | _ => e

/-- R53: an entry when its node moves from ABSENT to ONLINE. -/
def ProbeEntry.returned (e : ProbeEntry) : ProbeEntry := if e.state = .stale then e.resettled else e

/-- R53: a node's departure. -/
def nodeDeparted (n : Fin 16) (s : State) : State :=
  { s with probes := s.probes.map fun e => if e.onNode n then e.departed else e }

/-- R53: a node's return. -/
def nodeReturned (n : Fin 16) (s : State) : State :=
  { s with probes := s.probes.map fun e => if e.onNode n then e.returned else e }

/-- R66: an entry at Charge Reset. -/
def ProbeEntry.chargeReset (e : ProbeEntry) : ProbeEntry :=
  match e.state with
  | .unmapped => e
  | .excluded => if e.manual then e else e.resettled
  | _ => e.resettled

/-- R49: the first entry of a run. -/
def runStart (p e : Nat) : Nat := p / 2 ^ e * 2 ^ e

/-- R49: whether entry `i` belongs to the run of `p` and `e`. -/
def inRun (p e : Nat) (i : Fin 192) : Bool := decide (runStart p e ≤ i.val) && decide (i.val < runStart p e + 2 ^ e)

/-- R49: the entries of a run in a suitable state, in ascending number. -/
def runMembers (s : State) (p e : Nat) (suitable : ProbeEntry → Bool) : List (Fin 192) :=
  (List.finRange 192).filter fun i => inRun p e i && suitable (s.probe i)

/-- R70, R72: how many entries in a mapped state name a profile. -/
def profileUsers (s : State) (k : Fin 8) : Nat :=
  (List.finRange 192).countP fun i => (s.probe i).isMapped && (s.probe i).mapping.any (·.profile == k)

end Sys2Proof.Machine
end

