-- ==== Sys2Proof/Machine/Polling.lean ====
section
/-! DEFINITION. The Probe Poller (chapter 2): the Node Table's moves, the poll cycle, the scan exchange and what
halts, faults and restarts do to them. -/

namespace Sys2Proof.Machine

/-! ### The Node Table and the probe map (R23, R24, R39) -/

/-- R24: the mask with a channel added or removed. -/
def maskWith (mask : BitVec 16) (c : Fin 16) : BitVec 16 := mask ||| (1#16 <<< c.val)
def maskWithout (mask : BitVec 16) (c : Fin 16) : BitVec 16 := mask &&& ~~~(1#16 <<< c.val)

/-- R23, R24: a node that gains a mapped probe on a channel; from VACANT it becomes ONLINE afresh. -/
def NodeEntry.gain (e : NodeEntry) (c : Fin 16) : NodeEntry :=
  if e.state = .vacant then { nodeReset with state := .online, mask := maskWith e.mask c }
  else { e with mask := maskWith e.mask c }

/-- R23, R24: a node that loses a mapped probe; without a channel left it becomes VACANT. -/
def NodeEntry.lose (e : NodeEntry) (c : Fin 16) : NodeEntry :=
  if maskWithout e.mask c = 0 then nodeReset else { e with mask := maskWithout e.mask c }

/-- R23: a probe mapped to a node and channel. -/
def nodeGains (n c : Fin 16) (s : State) : State := s.setNode n ((s.node n).gain c)

/-- R39: the visit in flight marked when its node has become VACANT. -/
def markLost (n : Fin 16) (s : State) : State :=
  match s.poller.staging with
  | some st => if st.node = n ∧ (s.node n).state = .vacant then s.setStaging (some { st with lost := true }) else s
  | none => s

/-- R23: a mapped probe of a node and channel unmapped. -/
def nodeLoses (n c : Fin 16) (s : State) : State := markLost n (s.setNode n ((s.node n).lose c))

/-! ### Attempts (R30, R37, R38) -/

/-- R42: the attempt and the cycle abandoned without an outcome, the timer stopped and cycle due cleared. -/
def abandonPolling (s : State) : State :=
  { s with poller := { s.poller with staging := none, phase := .idle, cycleTimer := .stopped, cycleDue := false } }

/-- R30: the staging record of an attempt just built. -/
def newStaging (n : Fin 16) (retries : Nat) (tag : Byte) (mask : BitVec 16) : Staging :=
  { node := n, retries := retries, tag := tag, mask := mask, phase := .sending, nextPart := 0, entries := [],
    temp := none, noisy := false, timeout := .stopped, lost := false }

/-- R30: an attempt begun: the next tag and the node's mask taken, the SCAN handed to the Field slot. -/
def beginAttempt (n : Fin 16) (retries : Nat) (s : State) : State :=
  let tag := s.poller.nextTag
  let mask := (s.node n).mask
  { s with
    poller := { s.poller with nextTag := tag + 1, staging := some (newStaging n retries tag mask) }
    field := s.field.take (scanFrame n tag mask) }

/-- R14, R42: a SCAN handed over while the line is in FAULT is returned as not sent and its attempt is abandoned
with the cycle. -/
def sendScan (n : Fin 16) (retries : Nat) (s : State) : State :=
  let t := beginAttempt n retries s
  if s.field.lineState.isFault then abandonPolling t else t

/-! ### The cycle (R27 to R29) -/

/-- R28: whether a node is due in the current cycle. -/
def nodeDue (cycle : Word16) (e : NodeEntry) : Bool :=
  match e.state with
  | .online => true
  | .absent => cycle.toNat % 8 == 0
  | .vacant => false

/-- R28: the lowest node not below the visiting position that is due. -/
def nextNode (s : State) : Option (Fin 16) :=
  (List.finRange 16).find? fun n =>
    decide (s.poller.visitPos ≤ n.val) && nodeDue (s.poller.currentCycle.getD 0) (s.node n)

/-- R28: the visit to a node begun with a first attempt. -/
def beginVisit (n : Fin 16) (s : State) : State :=
  sendScan n 0 { s with poller := { s.poller with visitPos := n.val + 1 } }

/-- The Poller IDLE. -/
def pollIdle (s : State) : State := { s with poller := { s.poller with phase := .idle } }

/-- R27: the cycle state at a cycle start, before the first node is chosen. -/
def Poller.cycleStarted (p : Poller) (period : Nat) : Poller :=
  { p with
    phase := .cycling, cycleDue := false, currentCycle := some p.nextCycle, nextCycle := p.nextCycle + 1
    visitPos := 0, cycleTimer := .running period }

/-- R27: a cycle start. A cycle in which no node is due closes at once (R28), with cycle due clear (R29). -/
def startCycle (s : State) : State :=
  let t := { s with poller := s.poller.cycleStarted (s.param .cyclePeriod) }
  match nextNode t with
  | some n => beginVisit n t
  | none => pollIdle (closeEstimate t)

/-- R29: a cycle close. -/
def closeCycle (s : State) : State :=
  let t := closeEstimate s
  if t.poller.cycleDue then startCycle t else pollIdle t

/-- R28: the Poller free to begin a visit in a cycle. -/
def continueCycle (s : State) : State :=
  match nextNode s with
  | some n => beginVisit n s
  | none => closeCycle s

/-- R40, R41: the end of a draining cycle, without a close. -/
def endDrain (s : State) : State := if s.poller.cycleDue then startCycle s else pollIdle s

/-- The end of a visit: the staging record released, and the cycle goes on or its drain ends. -/
def endVisit (s : State) : State :=
  let t := s.setStaging none
  match t.poller.phase with
  | .cycling => continueCycle t
  | .draining => endDrain t
  | .idle => t

/-! ### Failed attempts (R37 to R39, R41) -/

def State.setOutcome (s : State) (n : Fin 16) (o : ScanOutcome) : State :=
  s.setNode n { s.node n with lastOutcome := o }

/-- R38: a node ONLINE becomes ABSENT on a miss that brings the count to the limit. -/
def departNode (n : Fin 16) (s : State) : State :=
  nodeDeparted n (s.setNode n { s.node n with state := .absent })

/-- R38: a miss. -/
def nodeMiss (n : Fin 16) (s : State) : State :=
  let misses := rise 15 (s.node n).misses
  let t := s.setNode n { s.node n with misses := misses }
  match (s.node n).state with
  | .online =>
    if s.param .missLimit ≤ misses then raiseFault (.node n) .nodeAbsent (some misses) (departNode n t) else t
  | .absent => raiseFault (.node n) .nodeAbsent (some misses) t
  | .vacant => t

/-- R37: a failed attempt of a node that did not become VACANT, in a cycle that is not draining. -/
def retryOrMiss (st : Staging) (s : State) : State :=
  if st.retries < s.param .retryLimit then sendScan st.node (st.retries + 1) s
  else endVisit (nodeMiss st.node s)

/-- R37, R39, R41: an attempt fails with a reason. -/
def attemptFails (st : Staging) (o : ScanOutcome) (s : State) : State :=
  if st.lost then endVisit s
  else if s.poller.phase = .draining then endVisit (s.setOutcome st.node o)
  else retryOrMiss st (s.setOutcome st.node o)

/-- The attempt in WAITING, if there is one, fails with a reason. -/
def failWaiting (o : ScanOutcome) (s : State) : State :=
  match s.poller.staging with
  | some st => if st.phase = .waiting then attemptFails st o s else s
  | none => s

/-! ### The commit (R33 to R36) -/

/-- R33: how often a channel stands among the entries. -/
def timesNamed (es : List ChannelEntry) (c : Nat) : Nat := es.countP (·.channel == c)

/-- R33: every channel of the mask exactly once, and no entry outside the mask. -/
def scanWhole (mask : BitVec 16) (es : List ChannelEntry) : Bool :=
  (List.range 16).all (fun c => !mask.getLsbD c || timesNamed es c == 1) &&
  es.all fun e => decide (e.channel < 16) && mask.getLsbD e.channel

/-- R34, step 1: the node entry of a commit. -/
def NodeEntry.committed (e : NodeEntry) (temp : Option NodeTemp) (minute : Nat) : NodeEntry :=
  { e with lastTemp := temp, lastScanMinute := some minute, misses := 0, lastOutcome := .committed }

/-- R34, step 2: an ABSENT node returns. -/
def returnNode (n : Fin 16) (s : State) : State :=
  if (s.node n).state = .absent then nodeReturned n (s.setNode n { s.node n with state := .online }) else s

/-- R35: the marginal test. -/
def marginalTest (n : Fin 16) (noisy : Bool) (s : State) : State :=
  if noisy then
    let count := rise 15 (s.node n).marginal
    let t := s.setNode n { s.node n with marginal := count }
    if s.param .marginalLimit ≤ count then raiseFault (.node n) .nodeMarginal (some count) t else t
  else s.setNode n { s.node n with marginal := 0 }

/-- R36: the temperature test. -/
def temperatureTest (n : Fin 16) (temp : Option NodeTemp) (s : State) : State :=
  match temp with
  | some t => if t.fault then raiseFault (.node n) .nodeTempFault (some t.value) s else s
  | none => s

/-- R34, step 4: the entry of one channel handed to the probe that holds the pair, or dropped. -/
def handEntry (n c : Fin 16) (es : List ChannelEntry) (s : State) : State :=
  match es.find? (·.channel == c.val), probeAt s n c with
  | some e, some p => takeReading p { code := e.code, status := e.status } s
  | _, _ => s

/-- R34, step 4: the entries handed over in ascending channel number. -/
def handEntries (n : Fin 16) (es : List ChannelEntry) (s : State) : State :=
  (List.finRange 16).foldl (fun s c => handEntry n c es s) s

/-- R34: the four steps of a committed scan. -/
def commitScan (st : Staging) (s : State) : State :=
  let n := st.node
  let s := s.setNode n ((s.node n).committed st.temp s.uptime)
  let s := returnNode n s
  let s := temperatureTest n st.temp (marginalTest n st.noisy s)
  handEntries n st.entries s

/-- R33, R34, R39: the commit check of a scan whose LAST part has been taken, and the end of its visit. -/
def commitCheck (st : Staging) (s : State) : State :=
  if scanWhole st.mask st.entries then endVisit (if st.lost then s else commitScan st s)
  else attemptFails st .incomplete s

/-! ### Screening (R32) -/

/-- R32: the staging record with a part taken. -/
def Staging.withPart (st : Staging) (p : SamplePart) (noisy : Bool) (timeout : Nat) : Staging :=
  { st with entries := st.entries ++ p.entries, temp := some p.temp, noisy := st.noisy || noisy
            nextPart := st.nextPart + 1, timeout := .running timeout }

/-- R32, step 6: a part judged by its index. -/
def takePart (st : Staging) (p : SamplePart) (noisy : Bool) (s : State) : State :=
  let limit := s.param .scanAnswerTimeout
  if p.index < st.nextPart then s.setStaging (some { st with timeout := .running limit })
  else if st.nextPart < p.index then attemptFails st .outOfOrder s
  else
    let st' := st.withPart p noisy limit
    if p.last then commitCheck st' (s.setStaging (some st')) else s.setStaging (some st')

/-- R32, steps 3 to 6: a SAMPLE from the node of the visit. -/
def screenSample (st : Staging) (payload : List Byte) (noisy : Bool) (s : State) : State :=
  match payload with
  | [] => attemptFails st .corrupt s
  | tag :: _ =>
    if tag ≠ st.tag then s
    else if sampleLengthOk payload.length then takePart st (samplePart payload) noisy s
    else attemptFails st .corrupt s

/-- R30, R32: a frame delivered on the Field Line. -/
def fieldDelivered (f : Frame) (noisy : Bool) (s : State) : State :=
  match s.poller.staging with
  | none => s
  | some st =>
    if st.phase = .sending then s
    else if f.address ≠ Config.nodeBase + BitVec.ofNat 8 st.node.val then s
    else if f.kind ≠ kindSample then s
    else screenSample st f.payload noisy s

/-- R30, R31: the end of the SCAN's transmission opens the answer window. -/
def fieldSent (s : State) : State :=
  match s.poller.staging with
  | some st => s.setStaging (some { st with phase := .waiting, timeout := .running (s.param .scanAnswerTimeout) })
  | none => s

/-! ### Timer, start and halt (R26, R40, R41) -/

/-- R26: an expiry of the cycle timer, by the Poller's phase. -/
def cycleTimerExpired (s : State) : State :=
  match s.poller.phase with
  | .idle => startCycle s
  | .cycling => { s with poller := { s.poller with cycleDue := true, cycleTimer := .stopped } }
  | .draining => s

def State.setFieldState (s : State) (l : LineState) : State := { s with field := { s.field with lineState := l } }

/-- R40: FIELD_START on a HALTED line. CYCLING does not occur in HALTED (log entry 17). -/
def fieldStarted (s : State) : State :=
  let t := s.setFieldState .running
  match t.poller.phase with
  | .idle => startCycle t
  | .draining => { t with poller := { t.poller with cycleDue := true } }
  | .cycling => t

/-- R41: the phase after FIELD_HALT on a RUNNING line. -/
def haltedPhase (p : Poller) : PollPhase :=
  match p.phase with
  | .idle => .idle
  | .draining => .draining
  | .cycling => if p.staging.isSome then .draining else .idle

/-- R41: FIELD_HALT on a RUNNING line. -/
def fieldHalted (s : State) : State :=
  { s with
    field := { s.field with lineState := .halted }
    poller := { s.poller with phase := haltedPhase s.poller, cycleTimer := .stopped, cycleDue := false } }

/-- R43: the Poller's part of a Field LINE_RESTART, the line state already restored. -/
def pollerRestart (s : State) : State :=
  let t := abandonPolling s
  if t.field.lineState = .running then startCycle t else t

/-! ### Charge Reset (R45) -/

/-- R45: a node entry at Charge Reset. -/
def NodeEntry.chargeReset (e : NodeEntry) : NodeEntry :=
  { e with misses := 0, marginal := 0, state := if e.state = .absent then .online else e.state }

end Sys2Proof.Machine
end

