-- ==== Sys2Proof/Machine/Framing.lean ====
section
/-! DEFINITION. Line framing (chapter 1): the frame assembler, the delivery of frames and discards to the owners,
the transmit slot and the stuck monitor. -/

namespace Sys2Proof.Machine

/-! ### The frame assembler (R8 to R11) -/

/-- What the assembler makes of an event. -/
inductive AssemblerEvent where
  | quiet
  | discarded (reason : DiscardReason)
  | delivered (frame : Frame) (noisy : Bool)
  deriving DecidableEq, Repr

/-- R8: a new frame opened by an address character. -/
def openFrame (c : RxChar) : Assembler :=
  .body { address := c.data, kind := none, length := none, payload := [], check := [], crc := crcByte 0xFFFF#16 c.data,
          noisy := c.noise, gap := .running Config.gapLimit }

/-- R9: the record with an ordinary character's noise taken and the gap timer restarted. -/
def FrameRecord.touched (r : FrameRecord) (c : RxChar) : FrameRecord :=
  { r with noisy := r.noisy || c.noise, gap := .running Config.gapLimit }

/-- R10: a complete frame compared with its two check bytes. -/
def completeFrame (r : FrameRecord) : AssemblerEvent :=
  if r.check = [highByte r.crc, lowByte r.crc] then
    .delivered { address := r.address, kind := r.kind.getD 0, payload := r.payload } r.noisy
  else .discarded .badCheck

/-- R9, R10: an ordinary character taken at the next position of the frame. -/
def takeCharacter (r : FrameRecord) (c : RxChar) : Assembler × AssemblerEvent :=
  let r' := { r.touched c with crc := crcByte r.crc c.data }
  match r.kind, r.length with
  | none, _ => (.body { r' with kind := some c.data }, .quiet)
  | some _, none =>
    if Config.payloadTop < c.data.toNat then (.hunt, .discarded .badLength)
    else (.body { r' with length := some c.data.toNat }, .quiet)
  | some _, some n =>
    if r.payload.length < n then (.body { r' with payload := r.payload ++ [c.data] }, .quiet)
    else
      let r'' := { r.touched c with check := r.check ++ [c.data] }
      if r''.check.length < 2 then (.body r'', .quiet) else (.hunt, completeFrame r'')

/-- R8, R9: a character judged by the assembler. -/
def assemble (a : Assembler) (c : RxChar) : Assembler × AssemblerEvent :=
  match a with
  | .hunt => if c.mark && !c.parity && !c.framing && !c.brk then (openFrame c, .quiet) else (.hunt, .quiet)
  | .body r =>
    if c.parity || c.framing || c.brk then (.hunt, .discarded .charError)
    else if c.mark then (openFrame c, .discarded .truncated)
    else takeCharacter r c

/-! ### Line access -/

def State.assemblerOf (s : State) : Line → Assembler
  | .field => s.field.assembler
  | .drive => s.drive.assembler
  | .kiln => s.kiln.assembler

def State.setAssembler (s : State) (l : Line) (a : Assembler) : State :=
  match l with
  | .field => { s with field := { s.field with assembler := a } }
  | .drive => { s with drive := { s.drive with assembler := a } }
  | .kiln => { s with kiln := { s.kiln with assembler := a } }

def State.setDiscard (s : State) (l : Line) (r : DiscardReason) : State :=
  match l with
  | .field => { s with field := { s.field with lastDiscard := r } }
  | .drive => { s with drive := { s.drive with lastDiscard := r } }
  | .kiln => { s with kiln := { s.kiln with lastDiscard := r } }

/-- A pair line as one of the three lines. -/
def lineOf : PairLine → Line
  | .field => .field
  | .drive => .drive

/-! ### Owners (R10, R12) -/

/-- R12: a discard reported to the line's owner. The Management Handler takes no action. -/
def reportDiscard (l : Line) (s : State) : State :=
  match l with
  | .field => failWaiting .corrupt s
  | .drive => noAnswer s
  | .kiln => s

/-- R12: a discard sets the last discard reason and is reported. -/
def discardFrame (l : Line) (r : DiscardReason) (s : State) : State := reportDiscard l (s.setDiscard l r)

/-- R10: a frame delivered to the line's owner. -/
def deliverFrame (l : Line) (f : Frame) (noisy : Bool) (s : State) : State :=
  match l with
  | .field => fieldDelivered f noisy s
  | .drive => driveDelivered f s
  | .kiln => kilnDelivered f noisy s

/-- What an assembler's event does. -/
def applyEvent (l : Line) (e : AssemblerEvent) (s : State) : State :=
  match e with
  | .quiet => s
  | .discarded r => discardFrame l r s
  | .delivered f noisy => deliverFrame l f noisy s

/-- R4, R8, R9: a character handed to a line's assembler. -/
def feedCharacter (l : Line) (c : RxChar) (s : State) : State :=
  let out := assemble (s.assemblerOf l) c
  applyEvent l out.2 (s.setAssembler l out.1)

/-! ### The receivers (R2 to R4, R14, R17) -/

/-- R14, R17: whether a pair unit's receiver takes a character: not while it sends, not in FAULT, and not before
the line has stood marking after a FRAMING or BREAK character. -/
def PairUnit.listens (u : PairUnit) : Bool := !u.slot.isSending && !u.lineState.isFault && !u.awaitMarking

/-- Whether a line's receiver takes a character. -/
def State.listens (s : State) : Line → Bool
  | .field => s.field.listens
  | .drive => s.drive.listens
  | .kiln => !s.kiln.awaitMarking

/-- R2, R3, R13: a pair unit after a character. After a FRAMING or BREAK character the receiver waits until the line has
stood marking again; a pair that returned to marking late in the stop position stands marking already, so there is
nothing to wait for (log entry 27). Each character restarts the idle count, which is held while the pair stands
spacing. -/
def PairUnit.afterChar (u : PairUnit) (c : RxChar) : PairUnit :=
  { u with awaitMarking := (c.framing || c.brk) && u.pairSpacing, idle := u.idleRestarted }

/-- R2, R3: a line's receiver after a character. The level of the Kiln pair is not an input of the model: its return to
marking after a FRAMING or BREAK character, late in the stop position or afterwards, is the KILN_LINE_MARKING_RETURN
that follows the character (log entry 27). A character of the Kiln Line also ends the moment in which a break may
precede the admission of the frame completed last (R163, log entry 28). -/
def State.afterChar (s : State) (l : Line) (c : RxChar) : State :=
  match l with
  | .field => { s with field := s.field.afterChar c }
  | .drive => { s with drive := s.drive.afterChar c }
  | .kiln => { s with kiln := { s.kiln with awaitMarking := c.framing || c.brk }
                      handler := { s.handler with completed := none } }

/-- R16: a BREAK character on the Kiln Line is also a Kiln Line break. -/
def breakReport (l : Line) (c : RxChar) (s : State) : State := if l = .kiln ∧ c.brk then kilnBreak s else s

/-- A character the receiver produces, handed to the assembler when the receiver takes one. -/
def receiveCharacter (l : Line) (c : RxChar) (s : State) : State :=
  if s.listens l then breakReport l c (feedCharacter l c (s.afterChar l c)) else s

/-- R3, R16, R163: a BREAK character. On the Kiln Line the break taken first is followed by the admission of the frame
completed just before it; without such a frame the order says nothing. -/
def receiveBreak (l : BreakLine) (s : State) : State :=
  match l, s.handler.completed with
  | .pair p, _ => receiveCharacter (lineOf p) breakChar s
  | .kiln .breakFirst, some f =>
    if s.listens .kiln then admitAfterBreak f (receiveCharacter .kiln breakChar s) else s
  | .kiln _, _ => receiveCharacter .kiln breakChar s

/-! ### The gap limit (R11) -/

/-- R11: in BODY the frame in progress is discarded as TRUNCATED; in HUNT no gap timer runs. -/
def gapExpired (l : Line) (s : State) : State :=
  match s.assemblerOf l with
  | .hunt => s
  | .body _ => discardFrame l .truncated (s.setAssembler l .hunt)

/-! ### Transmission (R13, R14) -/

/-- R13: the transmission begun with the slot's frame. -/
def PairUnit.startSending (u : PairUnit) (f : Frame) : PairUnit :=
  { u with slot := .sending f f.wire, idle := .stopped }

/-- R13: a frame begun; one in BODY is discarded as TRUNCATED. -/
def startTransmit (l : PairLine) (s : State) : State :=
  match (s.unit l).slot, (s.unit l).idle with
  | .waiting f, .running _ =>
    if (s.unit l).lineState.isFault then s
    else gapExpired (lineOf l) (s.setUnit l ((s.unit l).startSending f))
  | _, _ => s

/-- R13, R14, R18: a pair unit after its last stop bit: the slot empties, the idle count restarts, and a spell
starts when the pair is spacing. -/
def PairUnit.sent (u : PairUnit) (limit : Nat) : PairUnit :=
  { u with slot := .empty, idle := u.idleRestarted, spell := u.spellAt limit, awaitMarking := u.pairSpacing }

/-- R14: the end of transmission reported to the owner. -/
def reportSent (l : PairLine) (s : State) : State :=
  match l with
  | .field => fieldSent s
  | .drive => driveSent s

/-- R14: the last stop bit of a frame sent. -/
def endTransmit (l : PairLine) (s : State) : State :=
  match (s.unit l).slot with
  | .sending _ _ => reportSent l (s.setUnit l ((s.unit l).sent s.stuckLimit))
  | _ => s

/-! ### The stuck monitor and the line states (R17 to R20) -/

/-- R18: whether the stuck monitor times a spell that begins. -/
def PairUnit.timesSpells (u : PairUnit) : Bool := !u.slot.isSending && !u.lineState.isFault

/-- R13, R18: a pair unit after a change of its pair to spacing. -/
def PairUnit.spellStarted (u : PairUnit) (limit : Nat) : PairUnit :=
  { u with pairSpacing := true, idle := .stopped, spell := if u.timesSpells then .running limit else u.spell }

/-- R2, R3, R18: a pair unit after its pair's return to marking. -/
def PairUnit.spellEnded (u : PairUnit) : PairUnit :=
  { u with pairSpacing := false, awaitMarking := false, spell := .stopped
           idle := if u.slot.isSending then .stopped else .running Config.idleLimit }

/-- R17: the return state of a line state. -/
def LineState.back : LineState → ReturnState
  | .halted => .halted
  | .running => .running
  | .fault r => r

/-- R17, R20: the line state a restart leaves. -/
def LineState.restored : LineState → LineState
  | .fault .halted => .halted
  | .fault .running => .running
  | .halted => .halted
  | .running => .running

/-- R19: a unit on entry to FAULT: the transmitter stops, the slot and the frame in progress are dropped. -/
def PairUnit.faulted (u : PairUnit) : PairUnit :=
  { u with lineState := .fault u.lineState.back, slot := .empty, assembler := .hunt, spell := .stopped }

/-- R19, R42, R141: the owner told of the entry to FAULT. -/
def ownerFault (l : PairLine) (s : State) : State :=
  match l with
  | .field => abandonPolling s
  | .drive => abandonExchange s

/-- R112: the cause a line's FAULT adds. -/
def lineCause : PairLine → HoldCause
  | .field => .fieldFault
  | .drive => .driveFault

/-- R19: the LINE_STUCK fault. -/
def recordStuck (l : PairLine) (s : State) : State := raiseFault (.line l) .lineStuck none s

/-- R19: owner, Sequencer and Fault Record Set told, in the order the event carries. -/
def tellFault (l : PairLine) (order : FaultOrder) (s : State) : State :=
  match order with
  | .ownerSequencerRecord => recordStuck l (addCause (lineCause l) (ownerFault l s))
  | .ownerRecordSequencer => addCause (lineCause l) (recordStuck l (ownerFault l s))
  | .sequencerOwnerRecord => recordStuck l (ownerFault l (addCause (lineCause l) s))
  | .sequencerRecordOwner => ownerFault l (recordStuck l (addCause (lineCause l) s))
  | .recordOwnerSequencer => addCause (lineCause l) (ownerFault l (recordStuck l s))
  | .recordSequencerOwner => ownerFault l (addCause (lineCause l) (recordStuck l s))

/-- R19: a spell longer than the stuck limit. -/
def stuckExpired (l : PairLine) (order : FaultOrder) (s : State) : State :=
  match (s.unit l).spell with
  | .stopped => s
  | .running _ =>
    if (s.unit l).lineState.isFault then s else tellFault l order (s.setUnit l (s.unit l).faulted)

/-- R20: whether the receiver must see marking again after a restart that opens it on a spacing pair (log
entry 14). -/
def PairUnit.reopens (u : PairUnit) : Bool := (u.slot.isSending || u.lineState.isFault) && u.pairSpacing

/-- R20: a unit after LINE_RESTART. -/
def PairUnit.restarted (u : PairUnit) (limit : Nat) : PairUnit :=
  { u with
    lineState := u.lineState.restored, slot := .empty, assembler := .hunt, spell := u.spellAt limit
    idle := u.idleRestarted, awaitMarking := u.awaitMarking || u.reopens }

/-- R20, R43, R141: the owner told of the restart, the line state already restored. -/
def ownerRestart (l : PairLine) (s : State) : State :=
  match l with
  | .field => pollerRestart s
  | .drive => openExchange (abandonExchange s)

/-- R20: LINE_RESTART of a line; a line leaving FAULT tells the Sequencer after the owner (log entry 9). -/
def restartLine (l : PairLine) (s : State) : State :=
  let t := ownerRestart l (s.setUnit l ((s.unit l).restarted s.stuckLimit))
  if (s.unit l).lineState.isFault then removeCause (lineCause l) t else t

end Sys2Proof.Machine
end

