-- ==== Sys2Proof/Machine/LineEvents.lean ====
section
/-! DEFINITION. Meanings of the line units' commands: power-up, characters, breaks, spells, gap and stuck limits,
transmission and replies (chapter 1). An event that cannot happen in a state leaves it as it is (log entry 1). -/

namespace Sys2Proof.Machine

/-- R5, R13, R18: a pair unit at power-up, with its rate strap and the level it finds on its pair. On a spacing pair a
spell starts, with the default stuck limit, and the receiver waits for marking (log entry 14). -/
def pairUnitPowerUp (st : LineState) (rate : BitVec 2) (spacing : Bool) (limit : Nat) : PairUnit :=
  let u := { pairUnitReset st with rate := rate, pairSpacing := spacing, awaitMarking := spacing }
  { u with idle := u.idleRestarted, spell := u.spellAt limit }

/-- R17 and the power-up value of every item: the part after power-up with the straps and levels it reads. The
queue of commands is the model's and is kept. -/
def powerUp (straps : Straps) (levels : PairLevels) (s : State) : State :=
  { State.reset with
    pending := s.pending
    straps := straps
    field := pairUnitPowerUp .halted straps.frate levels.field State.reset.stuckLimit
    drive := pairUnitPowerUp .running straps.drate levels.drive State.reset.stuckLimit
    kiln := { kilnUnitReset with rate := straps.krate, awaitMarking := levels.kiln } }

/-- POWER_UP. -/
def execPowerUp (straps : Straps) (levels : PairLevels) (s : State) : Host.Outcome State Fault Refusal :=
  .next (powerUp straps levels s)

/-- CHARACTER_RECEIVED (R2 to R4, R8 to R12): the receiver makes a character of the samples, or none. -/
def execCharacterReceived (line : Line) (samples : Samples) (s : State) : Host.Outcome State Fault Refusal :=
  match receive samples with
  | none => .next s
  | some c => .next (receiveCharacter line c s)

/-- BREAK_CHARACTER (R3, R16, R163): one BREAK character on a line. -/
def execBreakCharacter (line : BreakLine) (s : State) : Host.Outcome State Fault Refusal := .next (receiveBreak line s)

/-- SPACING_SPELL_START (R13, R18): the pair changes from marking to spacing. -/
def execSpacingSpellStart (line : PairLine) (s : State) : Host.Outcome State Fault Refusal :=
  if (s.unit line).pairSpacing then .next s
  else .next (s.setUnit line ((s.unit line).spellStarted s.stuckLimit))

/-- SPACING_SPELL_END (R2, R3, R18): the pair returns to marking. -/
def execSpacingSpellEnd (line : PairLine) (s : State) : Host.Outcome State Fault Refusal :=
  .next (s.setUnit line (s.unit line).spellEnded)

/-- GAP_LIMIT_EXPIRY (R11). -/
def execGapLimitExpiry (line : Line) (s : State) : Host.Outcome State Fault Refusal := .next (gapExpired line s)

/-- STUCK_LIMIT_EXPIRY (R19). -/
def execStuckLimitExpiry (line : PairLine) (order : FaultOrder) (s : State) : Host.Outcome State Fault Refusal :=
  .next (stuckExpired line order s)

/-- The frames queued at power-up are handed over before the Drive unit can begin one (R138, log entry 7). -/
def beforeTransmit (line : PairLine) (s : State) : State :=
  match line with
  | .field => s
  | .drive => openExchange s

/-- TRANSMIT_START (R13). -/
def execTransmitStart (line : PairLine) (s : State) : Host.Outcome State Fault Refusal :=
  .next (startTransmit line (beforeTransmit line s))

/-- TRANSMIT_END (R14, R18, R30, R138). -/
def execTransmitEnd (line : PairLine) (s : State) : Host.Outcome State Fault Refusal := .next (endTransmit line s)

/-- REPLY_TRANSMIT_END (R15). -/
def execReplyTransmitEnd (s : State) : Host.Outcome State Fault Refusal := .next { s with kiln := s.kiln.replySent }

/-- REPLY_HANDOVER (R15, R160). -/
def execReplyHandover (s : State) : Host.Outcome State Fault Refusal := .next (handOverReply s)

/-- KILN_LINE_MARKING_RETURN (R2, R3): the Kiln receiver again looks for a start bit. -/
def execKilnLineMarkingReturn (s : State) : Host.Outcome State Fault Refusal :=
  .next { s with kiln := { s.kiln with awaitMarking := false } }

end Sys2Proof.Machine
end

