-- ==== Sys2Proof/Machine/LineRequests.lean ====
section
/-! DEFINITION. Meanings of the requests on identity, lines and configuration (R20, R21, R157, R164 to R166), and of a
frame whose kind is outside the catalogue (R162). -/

namespace Sys2Proof.Machine

/-- R166. -/
def identifyBody (p : List Byte) (s : State) : Answer :=
  match p with
  | [] => done s (Config.identity ++ Config.capacities ++ [stationAddress s.straps.addr, windowBase s.straps.addr])
  | _ => .error .badLength

/-- IDENTIFY. -/
def execIdentify (s : State) : Host.Outcome State Fault Refusal := .next (serveRequest 0x40 identifyBody s)

/-- R21: the data of READ_LINE_STATUS. -/
def lineStatusBytes (s : State) : List Byte :=
  b1 s.field.lineState.code ++ b1 s.drive.lineState.code ++ b1 s.field.lastDiscard.code ++
  b1 s.drive.lastDiscard.code ++ b1 s.kiln.lastDiscard.code ++
  b1 s.field.rate.toNat ++ b1 s.drive.rate.toNat ++ b1 s.kiln.rate.toNat

/-- R21. -/
def readLineStatusBody (p : List Byte) (s : State) : Answer :=
  match p with
  | [] => done s (lineStatusBytes s)
  | _ => .error .badLength

/-- READ_LINE_STATUS. -/
def execReadLineStatus (s : State) : Host.Outcome State Fault Refusal := .next (serveRequest 0x41 readLineStatusBody s)

/-- R164: the value taken for a parameter: the value sent, brought into its range. -/
def paramTaken (i : Fin 23) (v : Nat) : Nat := max paramLows[i] (min v paramHighs[i])

/-- R164. -/
def setConfigBody (p : List Byte) (s : State) : Answer :=
  match p with
  | [id, hi, lo] =>
    match paramIndexOfId id with
    | none => .error .range
    | some i =>
      let v := paramTaken i (u16 hi lo)
      .ok { state := { s with params := s.params.set i v }, clamped := v != u16 hi lo, data := id :: b2 v }
  | _ => .error .badLength

/-- SET_CONFIG. -/
def execSetConfig (s : State) : Host.Outcome State Fault Refusal := .next (serveRequest 0x42 setConfigBody s)

/-- R165. -/
def readConfigBody (p : List Byte) (s : State) : Answer :=
  match p with
  | [id] =>
    match paramIndexOfId id with
    | none => .error .range
    | some i => done s (id :: b2 s.params[i] ++ b2 paramLows[i] ++ b2 paramHighs[i] ++ b2 paramDefaults[i])
  | _ => .error .badLength

/-- READ_CONFIG. -/
def execReadConfig (s : State) : Host.Outcome State Fault Refusal := .next (serveRequest 0x43 readConfigBody s)

/-- R157. -/
def setAddressSlotBody (p : List Byte) (s : State) : Answer :=
  match p with
  | [a, m, v] =>
    if 1 < v.toNat then .error .range
    else done (s.setHandler { s.handler with slot1 := { address := a, mask := m, valid := v == 1 } }) [a, m, v]
  | _ => .error .badLength

/-- SET_ADDRESS_SLOT. -/
def execSetAddressSlot (s : State) : Host.Outcome State Fault Refusal := .next (serveRequest 0x44 setAddressSlotBody s)

/-- R20: a line number. -/
def pairLineOf (n : Byte) : Option PairLine :=
  if n = 0 then some .field else if n = 1 then some .drive else none

/-- R20. -/
def lineRestartBody (p : List Byte) (s : State) : Answer :=
  match p with
  | [n] =>
    match pairLineOf n with
    | none => .error .range
    | some l => done (restartLine l s) (b1 ((restartLine l s).unit l).lineState.code)
  | _ => .error .badLength

/-- LINE_RESTART. -/
def execLineRestart (s : State) : Host.Outcome State Fault Refusal := .next (serveRequest 0x54 lineRestartBody s)

/-- UNKNOWN_REQUEST (R162): a frame whose kind is not in the catalogue is refused BAD_KIND. -/
def execUnknownRequest (s : State) : Host.Outcome State Fault Refusal :=
  .next (serveFront (fun f => !f.cls.isWindow && (requestOfKind f.kind).isNone) (fun _ _ => .error .badKind) s)

end Sys2Proof.Machine
end

