-- ==== Sys2Proof/Machine/PollRequests.lean ====
section
/-! DEFINITION. Meanings of the requests on polling and the Estimate (R40, R41, R44, R95, R96). -/

namespace Sys2Proof.Machine

/-- R44: the data of READ_NODE. -/
def nodeBytes (n : Fin 16) (s : State) : List Byte :=
  let e := s.node n
  b1 n.val ++ b1 e.state.code ++ w2 e.mask ++ b1 e.misses ++ b1 e.marginal ++ nodeTempBytes e.lastTemp ++
  opt3 e.lastScanMinute ++ b1 e.lastOutcome.code ++ b1 s.poller.phase.code ++
  flag1 s.poller.currentCycle.isSome ++ optWord s.poller.currentCycle ++
  flag1 (s.poller.staging.any (·.node == n))

/-- R44. -/
def readNodeBody (p : List Byte) (s : State) : Answer :=
  match p with
  | [n] =>
    match indexOf 16 n with
    | none => .error .range
    | some n => done s (nodeBytes n s)
  | _ => .error .badLength

/-- READ_NODE. -/
def execReadNode (s : State) : Host.Outcome State Fault Refusal := .next (serveRequest 0x51 readNodeBody s)

/-- R40, R41: a DONE reply with the Field Line state. -/
def doneFieldState (s : State) : Answer := done s (b1 s.field.lineState.code)

/-- R40. -/
def fieldStartBody (p : List Byte) (s : State) : Answer :=
  match p with
  | [] =>
    match s.field.lineState with
    | .halted => doneFieldState (fieldStarted s)
    | .running => doneFieldState s
    | .fault _ => .error .busy
  | _ => .error .badLength

/-- FIELD_START. -/
def execFieldStart (s : State) : Host.Outcome State Fault Refusal := .next (serveRequest 0x52 fieldStartBody s)

/-- R41. -/
def fieldHaltBody (p : List Byte) (s : State) : Answer :=
  match p with
  | [] =>
    if s.sequencer.engaged then .error .busy
    else
      match s.field.lineState with
      | .running => doneFieldState (fieldHalted s)
      | .halted => doneFieldState s
      | .fault _ => doneFieldState (s.setFieldState (.fault .halted))
  | _ => .error .badLength

/-- FIELD_HALT. -/
def execFieldHalt (s : State) : Host.Outcome State Fault Refusal := .next (serveRequest 0x53 fieldHaltBody s)

/-- R95. -/
def readEstimateBody (p : List Byte) (s : State) : Answer :=
  match p with
  | [] => done s (estimateBytes s.estimator.current s.estimator.lagFlags)
  | _ => .error .badLength

/-- READ_ESTIMATE. -/
def execReadEstimate (s : State) : Host.Outcome State Fault Refusal := .next (serveRequest 0x58 readEstimateBody s)

/-- R96: the data of READ_RANKING from a first rank. -/
def rankingBytes (e : Option Estimate) (r : Nat) : List Byte :=
  flag1 e.isSome ++ optWord (e.map (·.sequence)) ++ b1 ((e.map (·.n)).getD 0) ++ b1 r ++
  (((e.map (·.ranking)).getD []).drop r |>.take 8).flatMap rankBytes

/-- R96. -/
def readRankingBody (p : List Byte) (s : State) : Answer :=
  match p with
  | [r] => if 191 < r.toNat then .error .range else done s (rankingBytes s.estimator.current r.toNat)
  | _ => .error .badLength

/-- READ_RANKING. -/
def execReadRanking (s : State) : Host.Outcome State Fault Refusal := .next (serveRequest 0x59 readRankingBody s)

end Sys2Proof.Machine
end

