-- ==== Sys2Proof/Machine/ProbeRequests.lean ====
section
/-! DEFINITION. Meanings of the requests on curves and probes (R47 to R52, R65, R68 to R72). -/

namespace Sys2Proof.Machine

/-- R69: codes strictly rising and figures strictly falling all along a curve. -/
def curveFalls : List CurvePoint → Bool
  | a :: b :: rest => decide (a.code < b.code) && decide (b.mc < a.mc) && curveFalls (b :: rest)
  | _ => true

/-- R69: the range checks of a point list. -/
def curveOk (points : List CurvePoint) : Bool :=
  decide (2 ≤ points.length) && decide (points.length ≤ 16) &&
  points.all (fun q => decide (q.code ≤ 4095) && decide (q.mc ≤ 1200)) && curveFalls points

/-- R70: a profile replaced whole. -/
def storeCurve (k : Fin 8) (kt : Nat) (points : List CurvePoint) (s : State) : State :=
  { s with curves := s.curves.set k { loaded := true, kt := kt, points := points } }

/-- R68: the length check of LOAD_CURVE. -/
def curveLengthOk (p : List Byte) : Bool := decide (3 ≤ p.length) && p.length == 3 + 4 * (byteAt p 2).toNat

/-- R68 to R70. -/
def loadCurveBody (p : List Byte) (s : State) : Answer :=
  if curveLengthOk p then
    let points := curvePoints p (byteAt p 2).toNat
    match indexOf 8 (byteAt p 0) with
    | none => .error .range
    | some k =>
      if curveOk points then
        if s.sequencer.engaged && profileUsers s k != 0 then .error .busy
        else done (storeCurve k (byteAt p 1).toNat points s) (b1 k.val ++ b1 points.length ++ b1 (profileUsers s k))
      else .error .range
  else .error .badLength

/-- LOAD_CURVE. -/
def execLoadCurve (s : State) : Host.Outcome State Fault Refusal := .next (serveRequest 0x48 loadCurveBody s)

/-- R72. -/
def readCurveBody (p : List Byte) (s : State) : Answer :=
  match p with
  | [n] =>
    match indexOf 8 n with
    | none => .error .range
    | some k => done s (profileBytes k s.curves[k] (profileUsers s k))
  | _ => .error .badLength

/-- READ_CURVE. -/
def execReadCurve (s : State) : Host.Outcome State Fault Refusal := .next (serveRequest 0x49 readCurveBody s)

/-- R47: the fields of a MAP_PROBE in range, a loaded profile named. -/
def mappingOf (s : State) (n c z k : Byte) : Option Mapping :=
  match indexOf 16 n, indexOf 16 c, indexOf 8 z, indexOf 8 k with
  | some n, some c, some z, some k =>
    if s.curves[k].loaded then some { node := n, channel := c, zone := z, profile := k } else none
  | _, _, _, _ => none

/-- R48: a probe entry just mapped. -/
def mappedEntry (m : Mapping) : ProbeEntry := { probeReset with state := .settling, mapping := some m }

/-- R48: a probe mapped and the Poller told. -/
def mapProbe (i : Fin 192) (m : Mapping) (s : State) : State :=
  nodeGains m.node m.channel (s.setProbe i (mappedEntry m))

/-- R47, R48. -/
def mapProbeBody (p : List Byte) (s : State) : Answer :=
  match p with
  | [i, n, c, z, k] =>
    match indexOf 192 i, mappingOf s n c z k with
    | some i, some m =>
      if (s.probe i).isMapped then .error .busy
      else if (probeAt s m.node m.channel).isSome then .error .conflict
      else done (mapProbe i m s)
        (b1 i.val ++ b1 ((mapProbe i m s).probe i).state.code ++ b1 ((mapProbe i m s).node m.node).state.code)
    | _, _ => .error .range
  | _ => .error .badLength

/-- MAP_PROBE. -/
def execMapProbe (s : State) : Host.Outcome State Fault Refusal := .next (serveRequest 0x4C mapProbeBody s)

/-- R50: one entry unmapped and the Poller told. -/
def unmapProbe (s : State) (i : Fin 192) : State :=
  match (s.probe i).mapping with
  | some m => nodeLoses m.node m.channel (s.setProbe i probeReset)
  | none => s.setProbe i probeReset

/-- R49: the probe number and span exponent of a run request. -/
def runOf (p e : Byte) : Option (Nat × Nat) :=
  if p.toNat ≤ 191 ∧ e.toNat ≤ 7 then some (p.toNat, e.toNat) else none

/-- R49: a run request: its members changed one by one in ascending number and counted in the reply. -/
def runBody (suitable : ProbeEntry → Bool) (change : State → Fin 192 → State) (p : List Byte) (s : State) : Answer :=
  match p with
  | [i, e] =>
    match runOf i e with
    | none => .error .range
    | some (i, e) =>
      done ((runMembers s i e suitable).foldl change s) (b1 (runMembers s i e suitable).length)
  | _ => .error .badLength

/-- R50. -/
def unmapProbesBody (p : List Byte) (s : State) : Answer := runBody ProbeEntry.isMapped unmapProbe p s

/-- UNMAP_PROBES. -/
def execUnmapProbes (s : State) : Host.Outcome State Fault Refusal := .next (serveRequest 0x4D unmapProbesBody s)

/-- R51: whether EXCLUDE_PROBES changes an entry. -/
def ProbeEntry.excludable (e : ProbeEntry) : Bool :=
  match e.state with
  | .unmapped => false
  | .excluded => !e.manual
  | _ => true

/-- R51: one entry excluded by request. -/
def excludeProbe (s : State) (i : Fin 192) : State :=
  s.setProbe i { s.probe i with state := .excluded, manual := true }

/-- R51. -/
def excludeProbesBody (p : List Byte) (s : State) : Answer := runBody ProbeEntry.excludable excludeProbe p s

/-- EXCLUDE_PROBES. -/
def execExcludeProbes (s : State) : Host.Outcome State Fault Refusal := .next (serveRequest 0x4E excludeProbesBody s)

/-- R52: whether INCLUDE_PROBES changes an entry. -/
def ProbeEntry.includable (e : ProbeEntry) : Bool := e.state == .excluded

/-- R52: one entry included. -/
def includeProbe (s : State) (i : Fin 192) : State := s.setProbe i (s.probe i).resettled

/-- R52. -/
def includeProbesBody (p : List Byte) (s : State) : Answer := runBody ProbeEntry.includable includeProbe p s

/-- INCLUDE_PROBES. -/
def execIncludeProbes (s : State) : Host.Outcome State Fault Refusal := .next (serveRequest 0x4F includeProbesBody s)

/-- R65. -/
def readProbeBody (p : List Byte) (s : State) : Answer :=
  match p with
  | [n] =>
    match indexOf 192 n with
    | none => .error .range
    | some i => done s (probeBytes i (s.probe i))
  | _ => .error .badLength

/-- READ_PROBE. -/
def execReadProbe (s : State) : Host.Outcome State Fault Refusal := .next (serveRequest 0x50 readProbeBody s)

end Sys2Proof.Machine
end

