-- ==== Sys2Proof/Machine/ReportRequests.lean ====
section
/-! DEFINITION. Meanings of the requests on faults and notices (R149, R150, R153). -/

namespace Sys2Proof.Machine

/-- R149: the number of present records. -/
def FaultSet.presentCount (f : FaultSet) : Nat := (List.finRange 16).countP fun i => f.records[i].isSome

/-- R149. -/
def readFaultBody (p : List Byte) (s : State) : Answer :=
  match p with
  | [n] =>
    match indexOf 16 n with
    | none => .error .range
    | some i =>
      done s (b1 i.val ++ faultBytes s.faults.records[i] ++ b1 s.faults.presentCount ++ flag1 s.faults.overflow)
  | _ => .error .badLength

/-- READ_FAULT. -/
def execReadFault (s : State) : Host.Outcome State Fault Refusal := .next (serveRequest 0x6E readFaultBody s)

/-- R150: every record freed and the overflow flag cleared. -/
def clearAllFaults (s : State) : State := { s with faults := { records := Vector.replicate 16 none, overflow := false } }

/-- R150. -/
def clearFaultsBody (p : List Byte) (s : State) : Answer :=
  match p with
  | [n] =>
    if n = 255 then done (clearAllFaults s) (b1 s.faults.presentCount ++ flag1 false)
    else
      match indexOf 16 n with
      | none => .error .range
      | some i => done (s.setFault i none) (flag1 s.faults.records[i].isSome ++ flag1 s.faults.overflow)
  | _ => .error .badLength

/-- CLEAR_FAULTS. -/
def execClearFaults (s : State) : Host.Outcome State Fault Refusal := .next (serveRequest 0x6F clearFaultsBody s)

/-- R153: the oldest notices removed and the LOST marker cleared. -/
def NoticeQueue.collected (q : NoticeQueue) (n : Nat) : NoticeQueue := { items := q.items.drop n, lost := false }

/-- R153: the data of a COLLECT_NOTICES reply. -/
def collectedBytes (q : NoticeQueue) (n : Nat) : List Byte :=
  b1 (q.items.take n).length ++ (q.items.take n).flatMap noticeBytes ++ flag1 q.lost ++ b1 (q.items.drop n).length

/-- R153. -/
def collectNoticesBody (p : List Byte) (s : State) : Answer :=
  match p with
  | [n] =>
    if 1 ≤ n.toNat ∧ n.toNat ≤ 4 then
      done { s with notices := s.notices.collected n.toNat } (collectedBytes s.notices n.toNat)
    else .error .range
  | _ => .error .badLength

/-- COLLECT_NOTICES. -/
def execCollectNotices (s : State) : Host.Outcome State Fault Refusal := .next (serveRequest 0x57 collectNoticesBody s)

end Sys2Proof.Machine
end

