-- ==== Sys2Proof/Machine/ScheduleRequests.lean ====
section
/-! DEFINITION. Meanings of the requests on the schedule (R45, R66, R97, R99 to R110, R120, R125, R143). -/

namespace Sys2Proof.Machine

/-- R101: whether a step is current or earlier while the schedule is RUNNING or HELD. -/
def stepReached (q : Sequencer) (i : Nat) : Bool := q.engaged && q.stepIndex.any fun k => decide (i ≤ k)

/-- R101: a step record replaced whole. -/
def storeStep (i : Fin 24) (r : StepRecord) (s : State) : State :=
  s.setSequencer { s.sequencer with steps := s.sequencer.steps.set i (some r) }

/-- R100: the record of a LOAD_STEP payload, when every check of R100 passes. -/
def loadStepRecord (p : List Byte) : Option StepRecord :=
  match StepKind.ofCode (byteAt p 1).toNat, StepCondition.ofCode (byteAt p 6).toNat with
  | some kind, some cond =>
    if stepRecordOk (stepRecordOf p kind cond) then some (stepRecordOf p kind cond) else none
  | _, _ => none

/-- R100, R101. -/
def loadStepBody (p : List Byte) (s : State) : Answer :=
  if p.length = 17 then
    match indexOf 24 (byteAt p 0), loadStepRecord p with
    | some i, some r =>
      if stepReached s.sequencer i.val then .error .busy
      else done (storeStep i r s) (b1 i.val ++ b1 s.sequencer.stepCount)
    | _, _ => .error .range
  else .error .badLength

/-- LOAD_STEP. -/
def execLoadStep (s : State) : Host.Outcome State Fault Refusal := .next (serveRequest 0x5C loadStepBody s)

/-- R103. -/
def readStepBody (p : List Byte) (s : State) : Answer :=
  match p with
  | [n] =>
    match indexOf 24 n with
    | none => .error .range
    | some i => done s (b1 i.val ++ stepBytes s.sequencer.steps[i])
  | _ => .error .badLength

/-- READ_STEP. -/
def execReadStep (s : State) : Host.Outcome State Fault Refusal := .next (serveRequest 0x5D readStepBody s)

/-- R102: the step count set; from EMPTY the schedule is LOADED, with a notice. -/
def setStepCount (n : Nat) (s : State) : State :=
  if s.sequencer.state = .empty then
    scheduleNotice (s.setSequencer { s.sequencer with stepCount := n, state := .loaded })
  else s.setSequencer { s.sequencer with stepCount := n }

/-- R102: whether a count is in range: 1 to 24, every record below it loaded, and above the current index while the
schedule is RUNNING or HELD. -/
def stepCountOk (q : Sequencer) (n : Nat) : Bool :=
  decide (1 ≤ n) && decide (n ≤ 24) && (List.range n).all (fun i => (q.stepAt i).isSome) &&
  !(q.engaged && q.stepIndex.any fun k => decide (n ≤ k))

/-- R102. -/
def setStepCountBody (p : List Byte) (s : State) : Answer :=
  match p with
  | [n] =>
    if stepCountOk s.sequencer n.toNat then
      done (setStepCount n.toNat s) (n :: b1 (setStepCount n.toNat s).sequencer.state.code)
    else .error .range
  | _ => .error .badLength

/-- SET_STEP_COUNT. -/
def execSetStepCount (s : State) : Host.Outcome State Fault Refusal := .next (serveRequest 0x5E setStepCountBody s)

/-- R104: whether START is refused BUSY. -/
def startBusy (s : State) : Bool := s.sequencer.state != .loaded || s.field.lineState != .running

/-- R104: the DONE data of START and RESUME. -/
def startedBytes (s : State) (i : Nat) : List Byte := b1 s.sequencer.state.code ++ b1 i ++ b1 s.sequencer.causes.code

/-- R104. In LOADED step 0 is loaded (R102); a schedule without it, which no run reaches, is refused RANGE (log
entry 17). -/
def startBody (p : List Byte) (s : State) : Answer :=
  match p with
  | [] =>
    if startBusy s then .error .busy
    else
      match s.sequencer.stepAt 0 with
      | none => .error .range
      | some r => done (startSchedule 0 0 r s) (startedBytes (startSchedule 0 0 r s) 0)
  | _ => .error .badLength

/-- START. -/
def execStart (s : State) : Host.Outcome State Fault Refusal := .next (serveRequest 0x60 startBody s)

/-- R105: the step a RESUME names, when its index is below the step count and its elapsed below the maximum. -/
def resumeStep (q : Sequencer) (k e : Nat) : Option StepRecord :=
  if k < q.stepCount then (q.stepAt k).filter fun r => decide (e < r.maximum) else none

/-- R105. -/
def resumeBody (p : List Byte) (s : State) : Answer :=
  match p with
  | [k, hi, lo] =>
    match resumeStep s.sequencer k.toNat (u16 hi lo) with
    | none => .error .range
    | some r =>
      if startBusy s then .error .busy
      else done (startSchedule k.toNat (u16 hi lo) r s) (startedBytes (startSchedule k.toNat (u16 hi lo) r s) k.toNat)
  | _ => .error .badLength

/-- RESUME. -/
def execResume (s : State) : Host.Outcome State Fault Refusal := .next (serveRequest 0x61 resumeBody s)

/-- R107: a request without payload, taken in RUNNING and HELD and refused BUSY in every other state. -/
def engagedBody (act : State → State) (report : State → List Byte) (p : List Byte) (s : State) : Answer :=
  match p with
  | [] => if s.sequencer.engaged then done (act s) (report (act s)) else .error .busy
  | _ => .error .badLength

/-- R107: the DONE data of HOLD and RELEASE. -/
def heldBytes (s : State) : List Byte := b1 s.sequencer.state.code ++ b1 s.sequencer.causes.code

/-- R107. -/
def holdBody (p : List Byte) (s : State) : Answer := engagedBody (addCause .manual) heldBytes p s

/-- HOLD. -/
def execHold (s : State) : Host.Outcome State Fault Refusal := .next (serveRequest 0x62 holdBody s)

/-- R107. -/
def releaseBody (p : List Byte) (s : State) : Answer := engagedBody (removeCause .manual) heldBytes p s

/-- RELEASE. -/
def execRelease (s : State) : Host.Outcome State Fault Refusal := .next (serveRequest 0x63 releaseBody s)

/-- R108: the DONE data of SKIP; the new step index, or 255 when the schedule has ended. -/
def skippedBytes (s : State) : List Byte :=
  b1 ExitReason.skipped.code ++ b1 s.sequencer.state.code ++
  b1 (if s.sequencer.state = .ended then 255 else s.sequencer.stepIndex.getD 255)

/-- R108. -/
def skipBody (p : List Byte) (s : State) : Answer := engagedBody (exitStep .skipped) skippedBytes p s

/-- SKIP. -/
def execSkip (s : State) : Host.Outcome State Fault Refusal := .next (serveRequest 0x64 skipBody s)

/-- R109: the schedule ABORTED, with its notice, and the Zone Controller told. -/
def abortSchedule (s : State) : State :=
  tellZones (scheduleNotice (s.setSequencer { s.sequencer with state := .aborted, causes := noCauses }))

/-- R109: the DONE data of ABORT. -/
def stateByte (s : State) : List Byte := b1 s.sequencer.state.code

/-- R109. -/
def abortBody (p : List Byte) (s : State) : Answer := engagedBody abortSchedule stateByte p s

/-- ABORT. -/
def execAbort (s : State) : Host.Outcome State Fault Refusal := .next (serveRequest 0x65 abortBody s)

/-- R45, R66, R97, R110, R143: every block's values after Charge Reset, before its report. -/
def chargeResetValues (s : State) : State :=
  { s with
    probes := s.probes.map ProbeEntry.chargeReset
    poller := { s.poller with nodes := s.poller.nodes.map NodeEntry.chargeReset }
    estimator := { s.estimator with current := none, lagFlags := Vector.replicate 8 false }
    zones := { s.zones with table := s.zones.table.map fun z => { z with clampedLast := false } }
    sequencer := s.sequencer.chargeReset }

/-- R110: Charge Reset; a change of the schedule state raises its notice and is told to the Zone Controller. -/
def chargeReset (s : State) : State :=
  let t := chargeResetValues s
  if t.sequencer.state = s.sequencer.state then t else tellZones (scheduleNotice t)

/-- R110. -/
def chargeResetBody (p : List Byte) (s : State) : Answer :=
  match p with
  | [] => if s.sequencer.engaged then .error .busy else done (chargeReset s) (stateByte (chargeReset s))
  | _ => .error .badLength

/-- CHARGE_RESET. -/
def execChargeReset (s : State) : Host.Outcome State Fault Refusal := .next (serveRequest 0x66 chargeResetBody s)

/-- R125: the data of READ_SCHEDULE. -/
def scheduleBytes (q : Sequencer) : List Byte :=
  b1 q.state.code ++ b1 q.stepCount ++ opt1 q.stepIndex ++ b2 q.elapsed ++ b3 q.entryMinute ++ b3 q.chargeMinute ++
  b1 q.causes.code ++ b1 q.streak ++ optTemp q.working ++ optTemp (q.currentStep.map (Int.ofNat ·.target)) ++
  optTemp q.publishedDry ++ optTemp q.publishedWet ++ b1 q.fan.code ++ b1 q.history.length

/-- R125. -/
def readScheduleBody (p : List Byte) (s : State) : Answer :=
  match p with
  | [] => done s (scheduleBytes s.sequencer)
  | _ => .error .badLength

/-- READ_SCHEDULE. -/
def execReadSchedule (s : State) : Host.Outcome State Fault Refusal := .next (serveRequest 0x67 readScheduleBody s)

/-- R120. -/
def readHistoryBody (p : List Byte) (s : State) : Answer :=
  match p with
  | [n] =>
    if 23 < n.toNat then .error .range
    else done s (b1 s.sequencer.history.length ++ historyBytes s.sequencer.history[n.toNat]?)
  | _ => .error .badLength

/-- READ_HISTORY. -/
def execReadHistory (s : State) : Host.Outcome State Fault Refusal := .next (serveRequest 0x68 readHistoryBody s)

end Sys2Proof.Machine
end

