-- ==== Sys2Proof/Machine/TimerEvents.lean ====
section
/-! DEFINITION. Meanings of the timers and the minute clock (chapters 2, 6, 7 and 8). -/

namespace Sys2Proof.Machine

/-- CYCLE_TIMER_EXPIRY (R26): a stopped timer does not expire. -/
def execCycleTimerExpiry (s : State) : Host.Outcome State Fault Refusal :=
  match s.poller.cycleTimer with
  | .stopped => .next s
  | .running _ => .next (cycleTimerExpired s)

/-- SCAN_ANSWER_TIMEOUT (R31): the attempt in WAITING fails with NO_ANSWER. -/
def execScanAnswerTimeout (s : State) : Host.Outcome State Fault Refusal := .next (failWaiting .noAnswer s)

/-- DRIVE_PERIOD_EXPIRY (R137). -/
def execDrivePeriodExpiry (s : State) : Host.Outcome State Fault Refusal := .next (drivePeriod s)

/-- DRIVE_ANSWER_TIMEOUT (R139): the exchange in WAITING ends with no answer. -/
def execDriveAnswerTimeout (s : State) : Host.Outcome State Fault Refusal := .next (noAnswer s)

/-- MINUTE_TICK (R114, R144): one minute tick, whole. -/
def execMinuteTick (s : State) : Host.Outcome State Fault Refusal := .next (minuteTick s)

/-- STEP_LIMIT (R115): the minute tick at which the step elapsed reaches the maximum duration; in a state whose next
tick does not, no such tick happens (log entry 5). -/
def execStepLimit (s : State) : Host.Outcome State Fault Refusal :=
  if limitTick s.sequencer then .next (minuteTick s) else .next s

/-- FAN_REVERSAL (R124): the minute tick at which the fan direction changes; in a state whose next tick does not change
it, no such tick happens (log entry 5). -/
def execFanReversal (s : State) : Host.Outcome State Fault Refusal :=
  if fanTick s.sequencer then .next (minuteTick s) else .next s

end Sys2Proof.Machine
end

