-- ==== Sys2Proof/Machine/ZoneRequests.lean ====
section
/-! DEFINITION. Meanings of the requests on zones and the envelope, and of a ZONE SET frame in the zone window (R129,
R130, R133 to R135, R142). -/

namespace Sys2Proof.Machine

/-- R130: the six values replaced. -/
def storeEnvelope (e : Envelope) (s : State) : State := { s with zones := { s.zones with envelope := e } }

/-- R130. -/
def setEnvelopeBody (p : List Byte) (s : State) : Answer :=
  if p.length = 12 then
    if envelopeOk (envelopeOf p) then
      if s.sequencer.engaged then .error .busy
      else done (storeEnvelope (envelopeOf p) s) (envelopeStates (envelopeOf p))
    else .error .range
  else .error .badLength

/-- SET_ENVELOPE. -/
def execSetEnvelope (s : State) : Host.Outcome State Fault Refusal := .next (serveRequest 0x6A setEnvelopeBody s)

/-- R130. -/
def readEnvelopeBody (p : List Byte) (s : State) : Answer :=
  match p with
  | [] => done s (envelopeValues s.zones.envelope ++ envelopeStates s.zones.envelope)
  | _ => .error .badLength

/-- READ_ENVELOPE. -/
def execReadEnvelope (s : State) : Host.Outcome State Fault Refusal := .next (serveRequest 0x6B readEnvelopeBody s)

/-- R129: the DONE data of SET_ZONE_MODE. -/
def zoneModeBytes (z : Fin 8) (s : State) : List Byte :=
  b1 z.val ++ b1 (s.zone z).mode.code ++ b1 (s.zone z).driver.code

/-- R129. -/
def setZoneModeBody (p : List Byte) (s : State) : Answer :=
  match p with
  | [z, m] =>
    match indexOf 8 z, ZoneMode.ofCode m.toNat with
    | some z, some m => done (setZoneMode z m s) (zoneModeBytes z (setZoneMode z m s))
    | _, _ => .error .range
  | _ => .error .badLength

/-- SET_ZONE_MODE. -/
def execSetZoneMode (s : State) : Host.Outcome State Fault Refusal := .next (serveRequest 0x6C setZoneModeBody s)

/-- R142: whether the exchange in flight is a zone's. -/
def zoneExchange (s : State) (z : Fin 8) : Option DriveExchange := s.zones.exchange.filter fun x => x.entry.zone == z

/-- R142: a zone's pending frame. -/
def zonePending (s : State) (z : Fin 8) : Option QueuedFrame := s.zones.queue.find? fun q => q.zone == z

/-- R142: the data of READ_ZONE. A frame due to be handed over is reported as handed over (R138): right after power-up
that is zone 0's, which the model hands over at the next act on the Drive Line (log entry 7). -/
def zoneBytes (z : Fin 8) (s : State) : List Byte :=
  let e := s.zone z
  let s := openExchange s
  b1 z.val ++ b1 e.mode.code ++ b1 e.driver.code ++ b1 e.misses ++ statusBytes e.lastStatus ++ b1 e.age ++
  flag1 e.fresh ++ manualBytes e.manual ++ e.lastBuilt.payload ++ [e.nextTag] ++ flag1 e.clampedLast ++
  flag1 (zonePending s z).isSome ++ opt1 ((zonePending s z).map (·.frame.tag.toNat)) ++
  flag1 (zoneExchange s z).isSome ++ opt1 ((zoneExchange s z).map (·.phase.code)) ++
  opt1 ((zoneExchange s z).map (·.entry.frame.tag.toNat))

/-- R142. -/
def readZoneBody (p : List Byte) (s : State) : Answer :=
  match p with
  | [n] =>
    match indexOf 8 n with
    | none => .error .range
    | some z => done s (zoneBytes z s)
  | _ => .error .badLength

/-- READ_ZONE. -/
def execReadZone (s : State) : Host.Outcome State Fault Refusal := .next (serveRequest 0x6D readZoneBody s)

/-- R133: the record of a ZONE SET payload, when its stage and setpoints are in range. -/
def zoneSetRecord (p : List Byte) : Option ManualRecord :=
  match Stage.ofCode (byteAt p 2).toNat with
  | some stage => if setpointsInRange (manualOf p stage).setpoints then some (manualOf p stage) else none
  | none => none

/-- R133, check 4: the refusal of a single zone that is not in MANUAL. -/
def zoneRefusal : ZoneMode → Option RefusalReason
  | .auto => some .zoneAuto
  | .off => some .zoneOff
  | .manual => none

/-- R134, R135: the zones a ZONE SET frame applies to, in ascending order. -/
def zoneSetZones (s : State) : ZoneTarget → List (Fin 8)
  | .one z => [z]
  | .all => (List.finRange 8).filter fun z => (s.zone z).mode == .manual

/-- R134, R135: the frame taken by each of the zones in turn. -/
def applyZoneSet (r : ManualRecord) (zs : List (Fin 8)) (s : State) : State := zs.foldl (fun s z => takeManual z r s) s

/-- R134, R135: a ZONE SET accepted: DONE with the count, CLAMPED when any frame built carries a clamp mark. -/
def acceptZoneSet (r : ManualRecord) (zs : List (Fin 8)) (s : State) : Answer :=
  .ok { state := applyZoneSet r zs s
        clamped := zs.any fun z => ((applyZoneSet r zs s).zone z).lastBuilt.marks.any
        data := b1 zs.length }

/-- R133, check 4. -/
def zoneSetRefusal (s : State) : ZoneTarget → Option RefusalReason
  | .one z => zoneRefusal (s.zone z).mode
  | .all => none

/-- R133 to R135: a frame of the zone window. -/
def zoneSetBody (target : ZoneTarget) (kind : Byte) (p : List Byte) (s : State) : Answer :=
  if kind ≠ kindSetpoint then .error .badKind
  else if p.length ≠ 7 then .error .badLength
  else
    match zoneSetRecord p with
    | none => .error .range
    | some r =>
      match zoneSetRefusal s target with
      | some why => .error why
      | none => acceptZoneSet r (zoneSetZones s target) s

/-- R133: a frame of any class given to the Zone Controller; only frames of the window are (see `execZoneSet`). -/
def windowBody (f : KilnFrame) (s : State) : Answer :=
  match f.cls with
  | .window target => zoneSetBody target f.kind f.payload s
  | .station => .error .badKind
  | .broadcast => .error .badKind
  | .slot1 => .error .badKind

/-- ZONE_SET (R133 to R135, R160): the front frame stands in the zone window, whatever its kind. -/
def execZoneSet (s : State) : Host.Outcome State Fault Refusal :=
  .next (serveFront (fun f => f.cls.isWindow) windowBody s)

end Sys2Proof.Machine
end

