-- ==== Sys2Proof/Machine/Dispatch.lean ====
section
/-! DEFINITION. One arm per command of the opcode table, in the table's order. -/

namespace Sys2Proof.Machine

def exec (i : Instr) (s : State) : Host.Outcome State Fault Refusal :=
  match i with
  | .powerUp straps levels => Sys2Proof.Machine.execPowerUp straps levels s
  | .characterReceived line samples => Sys2Proof.Machine.execCharacterReceived line samples s
  | .breakCharacter line => Sys2Proof.Machine.execBreakCharacter line s
  | .spacingSpellStart line => Sys2Proof.Machine.execSpacingSpellStart line s
  | .spacingSpellEnd line => Sys2Proof.Machine.execSpacingSpellEnd line s
  | .gapLimitExpiry line => Sys2Proof.Machine.execGapLimitExpiry line s
  | .stuckLimitExpiry line order => Sys2Proof.Machine.execStuckLimitExpiry line order s
  | .transmitStart line => Sys2Proof.Machine.execTransmitStart line s
  | .transmitEnd line => Sys2Proof.Machine.execTransmitEnd line s
  | .replyTransmitEnd => Sys2Proof.Machine.execReplyTransmitEnd s
  | .replyHandover => Sys2Proof.Machine.execReplyHandover s
  | .cycleTimerExpiry => Sys2Proof.Machine.execCycleTimerExpiry s
  | .scanAnswerTimeout => Sys2Proof.Machine.execScanAnswerTimeout s
  | .drivePeriodExpiry => Sys2Proof.Machine.execDrivePeriodExpiry s
  | .driveAnswerTimeout => Sys2Proof.Machine.execDriveAnswerTimeout s
  | .minuteTick => Sys2Proof.Machine.execMinuteTick s
  | .stepLimit => Sys2Proof.Machine.execStepLimit s
  | .fanReversal => Sys2Proof.Machine.execFanReversal s
  | .identify => Sys2Proof.Machine.execIdentify s
  | .readLineStatus => Sys2Proof.Machine.execReadLineStatus s
  | .setConfig => Sys2Proof.Machine.execSetConfig s
  | .readConfig => Sys2Proof.Machine.execReadConfig s
  | .setAddressSlot => Sys2Proof.Machine.execSetAddressSlot s
  | .lineRestart => Sys2Proof.Machine.execLineRestart s
  | .loadCurve => Sys2Proof.Machine.execLoadCurve s
  | .readCurve => Sys2Proof.Machine.execReadCurve s
  | .mapProbe => Sys2Proof.Machine.execMapProbe s
  | .unmapProbes => Sys2Proof.Machine.execUnmapProbes s
  | .excludeProbes => Sys2Proof.Machine.execExcludeProbes s
  | .includeProbes => Sys2Proof.Machine.execIncludeProbes s
  | .readProbe => Sys2Proof.Machine.execReadProbe s
  | .readNode => Sys2Proof.Machine.execReadNode s
  | .fieldStart => Sys2Proof.Machine.execFieldStart s
  | .fieldHalt => Sys2Proof.Machine.execFieldHalt s
  | .readEstimate => Sys2Proof.Machine.execReadEstimate s
  | .readRanking => Sys2Proof.Machine.execReadRanking s
  | .loadStep => Sys2Proof.Machine.execLoadStep s
  | .readStep => Sys2Proof.Machine.execReadStep s
  | .setStepCount => Sys2Proof.Machine.execSetStepCount s
  | .start => Sys2Proof.Machine.execStart s
  | .resume => Sys2Proof.Machine.execResume s
  | .hold => Sys2Proof.Machine.execHold s
  | .release => Sys2Proof.Machine.execRelease s
  | .skip => Sys2Proof.Machine.execSkip s
  | .abort => Sys2Proof.Machine.execAbort s
  | .chargeReset => Sys2Proof.Machine.execChargeReset s
  | .readSchedule => Sys2Proof.Machine.execReadSchedule s
  | .readHistory => Sys2Proof.Machine.execReadHistory s
  | .setEnvelope => Sys2Proof.Machine.execSetEnvelope s
  | .readEnvelope => Sys2Proof.Machine.execReadEnvelope s
  | .setZoneMode => Sys2Proof.Machine.execSetZoneMode s
  | .readZone => Sys2Proof.Machine.execReadZone s
  | .readFault => Sys2Proof.Machine.execReadFault s
  | .clearFaults => Sys2Proof.Machine.execClearFaults s
  | .collectNotices => Sys2Proof.Machine.execCollectNotices s
  | .zoneSet => Sys2Proof.Machine.execZoneSet s
  | .unknownRequest => Sys2Proof.Machine.execUnknownRequest s
  | .kilnLineMarkingReturn => Sys2Proof.Machine.execKilnLineMarkingReturn s

end Sys2Proof.Machine
end

