-- ==== Sys2Proof/Safety.lean ====
section
/-! DEFINITION. What a sound state of the KC240 is: the conditions that the spec says hold at all times, and the terms
in which the statements speak of a request being taken and answered. -/

namespace Sys2Proof.Safety

open Sys2Proof.Machine

/-! ### Conditions that hold at all times -/

/-- R158, R159: at most 8 frames wait; KL_RDY is asserted only below 6 of them and deasserted only above 2. -/
def IntakeSound (h : Handler) : Prop :=
  h.intake.length ≤ 8 ∧ (h.klRdy = true → h.intake.length ≤ 5) ∧ (h.klRdy = false → 3 ≤ h.intake.length)

/-- R151: at most 32 notices wait. -/
def NoticesSound (q : NoticeQueue) : Prop := q.items.length ≤ 32

/-- R111: the hold-cause set is non-empty in HELD and empty in every other schedule state. -/
def CausesSound (q : Sequencer) : Prop := q.causes.isEmpty = false ↔ q.state = .held

/-- R136: no two frames of the Drive Queue are for one zone. -/
def QueueSound (z : ZoneControl) : Prop := (z.queue.map (·.zone)).Nodup

/-- R145: no two present records have the same source and reason. -/
def FaultsSound (f : FaultSet) : Prop :=
  ∀ i j a b, f.records[i] = some a → f.records[j] = some b → a.source = b.source → a.reason = b.reason →
    (i : Fin 16) = j

/-- R164: every parameter lies within its limits. -/
def ParamsSound (p : Params) : Prop := ∀ i : Fin 23, paramLows[i] ≤ p[i] ∧ p[i] ≤ paramHighs[i]

/-- R67: a loaded profile holds 2 to 16 points in range, codes rising and figures falling. -/
def CurvesSound (curves : Vector Profile 8) : Prop :=
  ∀ k : Fin 8, curves[k].loaded = true → curveOk curves[k].points = true

/-- R46, R47: an entry holds a mapping exactly in the mapped states, and no two mapped entries hold one node and
channel. -/
def ProbesSound (p : Vector ProbeEntry 192) : Prop :=
  (∀ i : Fin 192, p[i].isMapped = p[i].mapping.isSome) ∧
  ∀ (i j : Fin 192) (a b : Mapping), p[i].mapping = some a → p[j].mapping = some b → a.node = b.node →
    a.channel = b.channel → i = j

/-- R23, R24: a node is VACANT exactly when no mapped entry names it, and its mask holds exactly the channels that mapped
entries name on it. An entry holds a mapping exactly in the mapped states (`ProbesSound`). -/
def NodesSound (nodes : Vector NodeEntry 16) (p : Vector ProbeEntry 192) : Prop :=
  ∀ n : Fin 16,
    (nodes[n].state = .vacant ↔ ∀ (i : Fin 192) (m : Mapping), p[i].mapping = some m → m.node ≠ n) ∧
    ∀ c : Fin 16, nodes[n].mask.getLsbD c.val = true ↔
      ∃ (i : Fin 192) (m : Mapping), p[i].mapping = some m ∧ m.node = n ∧ m.channel = c

/-- R84: an entry in ACTIVE or SUSPECT holds a filtered MC. -/
def Figured (e : ProbeEntry) : Prop := e.state = .active ∨ e.state = .suspect → e.filtered.isSome = true

/-- R84: every contributor has a figure. -/
def FiguresSound (p : Vector ProbeEntry 192) : Prop := ∀ i : Fin 192, Figured p[i]

/-- R100, R102, R114, R120: loaded records are in range, the steps below the count are loaded, a RUNNING or HELD
schedule stands in one of them below its maximum duration, and the history holds no more entries than steps passed. -/
def ScheduleSound (q : Sequencer) : Prop :=
  (∀ i r, q.stepAt i = some r → stepRecordOk r = true) ∧
  q.stepCount ≤ 24 ∧ (∀ i, i < q.stepCount → (q.stepAt i).isSome = true) ∧ q.history.length ≤ 24 ∧
  (q.state = .loaded → 1 ≤ q.stepCount) ∧
  (q.engaged = true → ∃ i r, q.stepIndex = some i ∧ i < q.stepCount ∧ q.stepAt i = some r ∧
    q.elapsed < r.maximum ∧ q.history.length ≤ i)

/-! ### A request taken and answered (R160, R161) -/

/-- R160: the reply place is empty, and the frame at the front of the intake queue is `f`, with `rest` behind it. -/
def AtFront (s : State) (f : KilnFrame) (rest : List KilnFrame) : Prop :=
  s.handler.replyPlace = none ∧ s.handler.intake = f :: rest

/-- R160: the frame at the front is a request of this kind, from the station or a group address. -/
def Asked (s : State) (kind : Byte) (f : KilnFrame) (rest : List KilnFrame) : Prop :=
  AtFront s f rest ∧ f.cls.isWindow = false ∧ f.kind = kind

/-- R159 to R161: the Handler after the front frame is taken and answered with a reply of this kind and payload; a
group frame gets no reply. -/
def handlerAfter (h : Handler) (f : KilnFrame) (rest : List KilnFrame) (kind : Byte) (payload : List Byte) : Handler :=
  { h with
    intake := rest
    klRdy := h.klRdy || rest.length == 2
    completed := none
    replyPlace :=
      if f.cls.isGroup then none
      else some { frame := { address := f.address, kind := kind, payload := payload }, requestKind := f.kind } }

/-- R161: the first two bytes of a DONE payload: the request's kind and the flags. -/
def doneHead (f : KilnFrame) (clamped : Bool) : List Byte := [f.kind, BitVec.ofNat 8 (f.noisy.toNat + 2 * clamped.toNat)]

/-- R159, R160: the state `s` with its front frame taken for execution and not answered yet. -/
def Taken (s : State) (rest : List KilnFrame) : State :=
  { s with handler := { s.handler with intake := rest, klRdy := s.handler.klRdy || rest.length == 2, completed := none } }

/-- The state `t` with the front frame of `s` taken and answered DONE with a CLAMPED flag and data. -/
def AnsweredWith (clamped : Bool) (s : State) (f : KilnFrame) (rest : List KilnFrame) (data : List Byte) (t : State) :
    State :=
  { t with handler := handlerAfter s.handler f rest 0x70 (doneHead f clamped ++ data) }

/-- The same with CLAMPED clear. -/
def Answered (s : State) (f : KilnFrame) (rest : List KilnFrame) (data : List Byte) (t : State) : State :=
  AnsweredWith false s f rest data t

/-- The state `s` with its front frame taken and answered REFUSED with a reason code, and nothing else changed. -/
def Refused (s : State) (f : KilnFrame) (rest : List KilnFrame) (code : Byte) : State :=
  { s with handler := handlerAfter s.handler f rest 0x71 [f.kind, code] }

/-! ### Figures -/

/-- Section 4.2: `c` is the mean of figures, rounded to the nearest whole with halves away from zero. -/
def RoundedMean (c : Nat) (xs : List Nat) : Prop :=
  xs ≠ [] ∧ 2 * xs.length * c ≤ 2 * xs.sum + xs.length ∧ 2 * xs.sum + xs.length < 2 * xs.length * (c + 1)

/-- Section 4.2: `k` is the quotient of `n` and `d`, rounded to the nearest whole with halves away from zero. -/
def RoundedQuotient (k n : Int) (d : Nat) : Prop :=
  (0 ≤ n → 2 * d * k ≤ 2 * n + d ∧ 2 * n + d < 2 * d * (k + 1)) ∧
  (n < 0 → 2 * d * -k ≤ 2 * -n + d ∧ 2 * -n + d < 2 * d * (-k + 1))

/-! ### Fields of a reply's data (section 11.6, R167), read back by offset -/

/-- One byte at offset `k` holds a field, all ones when it is absent. -/
def Holds1 (p : List Byte) (k : Nat) : Option Nat → Prop
  | none => byteAt p k = 0xFF
  | some n => (byteAt p k).toNat = n % 256

/-- Two bytes at offset `k`, most significant first, hold a field. -/
def Holds2 (p : List Byte) (k : Nat) : Option Nat → Prop
  | none => byteAt p k = 0xFF ∧ byteAt p (k + 1) = 0xFF
  | some n => u16At p k = n % 65536

/-- Three bytes at offset `k`, most significant first, hold a field. -/
def Holds3 (p : List Byte) (k : Nat) : Option Nat → Prop
  | none => byteAt p k = 0xFF ∧ byteAt p (k + 1) = 0xFF ∧ byteAt p (k + 2) = 0xFF
  | some n => (byteAt p k).toNat * 65536 + u16At p (k + 1) = n % 16777216

/-- Two bytes at offset `k` hold a signed figure that two bytes can hold; 0x8000 when it is absent. -/
def HoldsTemp (p : List Byte) (k : Nat) : Option Int → Prop
  | none => byteAt p k = 0x80 ∧ byteAt p (k + 1) = 0
  | some x => -32768 ≤ x → x ≤ 32767 → s16At p k = x

/-! ### Frames fed to an assembler (R8 to R10) -/

/-- The assembler after a run of characters, with what it makes of each. -/
def runAssembler (a : Assembler) : List RxChar → Assembler × List AssemblerEvent
  | [] => (a, [])
  | c :: cs =>
    let out := assemble a c
    let later := runAssembler out.1 cs
    (later.1, out.2 :: later.2)

/-- The characters a receiver makes of a run of twelve-bit characters that arrive as they were sent. -/
def receivedClean (cs : List WireChar) : List RxChar := cs.filterMap fun c => receive (cleanSamples c)

end Sys2Proof.Safety
end

