-- ==== Sys2Proof/Certificates/Slice0/Obligations.lean ====
section
/-! DEFINITION. The statements for the provers: what each command does, what the blocks compute, and what every step
keeps. -/

open Sys2Proof
open Sys2Proof.Machine
open Sys2Proof.Safety

/-! ### The machine -/

/-- A step runs the command at the front of the queue on the state with the queue's rest. That an empty queue leaves
the state as it is, is the model's choice (log entry 3). -/
def Obligations.StepRunsFront : Prop :=
  (∀ (c : Instr) (rest : List Instr) (s : State), s.pending = c :: rest → step s = exec c { s with pending := rest }) ∧
  (∀ s : State, s.pending = [] → step s = .next s)

/-- The power-up state meets every condition that the steps keep. -/
def Obligations.ResetSound : Prop :=
  IntakeSound State.reset.handler ∧ NoticesSound State.reset.notices ∧ FaultsSound State.reset.faults ∧
  CausesSound State.reset.sequencer ∧ ScheduleSound State.reset.sequencer ∧ QueueSound State.reset.zones ∧
  ParamsSound State.reset.params ∧ CurvesSound State.reset.curves ∧ ProbesSound State.reset.probes ∧
  FiguresSound State.reset.probes ∧ NodesSound State.reset.poller.nodes State.reset.probes

/-- POWER_UP from any state: the power-up values of every block (R8, R12, R17, R22, R26, R27, R46, R67, R83, R93, R99,
R111, R126, R136, R143, R144, R145, R151, R157, R158, R159, R164), the rates of the straps (R5), and the idle counts
and spells by the levels found on the pairs (R13, R18), the envelope of section 7.3 and slot 1 of chapter 9's table.
That the queue of commands is kept is the model's choice (log entry 26), and so are the empty transmit slots and reply
places of the line units (log entry 6) and the frame completed last (log entry 28). -/
def Obligations.PowerUpValues : Prop :=
  ∀ (straps : Straps) (levels : PairLevels) (s : State), ∃ t : State, exec (.powerUp straps levels) s = .next t ∧
    t.pending = s.pending ∧ t.straps = straps ∧ t.uptime = 0 ∧
    t.params = #v[60, 20, 1, 3, 4, 3, 4, 30, 4, 1, 8, 4, 0, 2, 3, 40, 10, 20, 3, 2, 10, 1, 0] ∧
    t.field.lineState = .halted ∧ t.drive.lineState = .running ∧
    t.field.rate = straps.frate ∧ t.drive.rate = straps.drate ∧ t.kiln.rate = straps.krate ∧
    (∀ l : PairLine, (t.unit l).assembler = .hunt ∧ (t.unit l).lastDiscard = .none) ∧
    t.kiln.assembler = .hunt ∧ t.kiln.lastDiscard = .none ∧
    t.field.pairSpacing = levels.field ∧ t.drive.pairSpacing = levels.drive ∧
    (∀ l : PairLine, (t.unit l).spell = (if (t.unit l).pairSpacing then .running 40 else .stopped) ∧
      (t.unit l).idle = (if (t.unit l).pairSpacing then .stopped else .running 24)) ∧
    (∀ n : Fin 16, t.node n =
      { state := .vacant, mask := 0, misses := 0, marginal := 0, lastTemp := none, lastScanMinute := none,
        lastOutcome := .none }) ∧
    t.poller.phase = .idle ∧ t.poller.cycleTimer = .stopped ∧ t.poller.nextCycle = 0 ∧ t.poller.currentCycle = none ∧
    t.poller.cycleDue = false ∧ t.poller.visitPos = 0 ∧ t.poller.nextTag = 0 ∧ t.poller.staging = none ∧
    (∀ i : Fin 192, t.probe i =
      { state := .unmapped, mapping := none, manual := false, reading := none, conversion := none, filtered := none,
        held := none, progress := 0, streak := 0, lastReject := none, lastAccepted := none }) ∧
    (∀ k : Fin 8, t.curves[k] = { loaded := false, kt := 0, points := [] }) ∧
    t.estimator.current = none ∧ t.estimator.nextSequence = 0 ∧ (∀ z : Fin 8, t.estimator.lagFlags[z] = false) ∧
    (∀ i, t.sequencer.stepAt i = none) ∧ t.sequencer.stepCount = 0 ∧ t.sequencer.state = .empty ∧
    t.sequencer.stepIndex = none ∧ t.sequencer.elapsed = 0 ∧ t.sequencer.entryMinute = 0 ∧
    t.sequencer.chargeMinute = 0 ∧ t.sequencer.causes.isEmpty = true ∧ t.sequencer.streak = 0 ∧
    t.sequencer.history = [] ∧ t.sequencer.basis = none ∧ t.sequencer.working = none ∧ t.sequencer.fan = .forward ∧
    (∀ z : Fin 8, (t.zone z).mode = .off ∧ (t.zone z).driver = .unknown ∧ (t.zone z).misses = 0 ∧
      (t.zone z).lastStatus = none ∧ (t.zone z).age = 0 ∧ (t.zone z).manual = none ∧ (t.zone z).nextTag = 1 ∧
      (t.zone z).clampedLast = false ∧ (t.zone z).lastBuilt =
        { tag := 0, origin := .idle, fanRun := false, direction := .forward, stage := .none, setpoints := none,
          marks := noMarks }) ∧
    t.zones.queue = (List.finRange 8).map (fun z =>
      { zone := z, frame := (t.zone z).lastBuilt, modeAtBuild := .off }) ∧
    t.zones.exchange = none ∧ t.zones.periodTimer = .running 10 ∧
    t.zones.envelope =
      { dryFloor := 1, dryCeiling := 0, wetFloor := 1, wetCeiling := 0, depMin := 1, depMax := 0 } ∧
    (∀ i : Fin 16, t.faults.records[i] = none) ∧ t.faults.overflow = false ∧
    t.notices.items = [] ∧ t.notices.lost = false ∧
    t.handler.intake = [] ∧ t.handler.replyPlace = none ∧ t.handler.klRdy = true ∧ t.handler.slot1 = { address := 0, mask := 0, valid := false } ∧
    (∀ l : PairLine, (t.unit l).slot = .empty) ∧ t.kiln.sending = none ∧ t.kiln.waiting = none ∧
    t.handler.completed = none

/-! ### Line framing -/

/-- The characters on the wire and the frame check: start, data least significant bit first, mark, odd parity, stop;
and 0x29B1 over "123456789". What the receiver makes of twelve sampled positions: nothing when the start bit is
marking, a BREAK character when every position is spacing, and otherwise the majority of each position with the tags
NOISE, PARITY and FRAMING. Characters come in as the samples of their positions (log entry 15). -/
def Obligations.CharactersSentAndReceived : Prop :=
  ((∀ (d : Byte) (m : Bool), (transmitChar d m).getLsbD 0 = false ∧
     (∀ k < 8, (transmitChar d m).getLsbD (k + 1) = d.getLsbD k) ∧ (transmitChar d m).getLsbD 9 = m ∧
     (transmitChar d m).getLsbD 11 = true ∧
     ((List.range 10).countP fun k => (transmitChar d m).getLsbD (k + 1)) % 2 = 1) ∧
   crcOf [0x31, 0x32, 0x33, 0x34, 0x35, 0x36, 0x37, 0x38, 0x39] = 0x29B1#16) ∧
  (∀ w : Samples,
     let v := fun k => (w.getLsbD (3 * k) && w.getLsbD (3 * k + 1)) || (w.getLsbD (3 * k) && w.getLsbD (3 * k + 2)) ||
       (w.getLsbD (3 * k + 1) && w.getLsbD (3 * k + 2))
     (v 0 = true → receive w = none) ∧
     ((∀ k < 12, v k = false) → receive w =
       some { data := 0, mark := false, noise := false, parity := false, framing := false, brk := true }) ∧
     (v 0 = false → (∃ k < 12, v k = true) → ∃ c, receive w = some c ∧ (∀ k < 8, c.data.getLsbD k = v (k + 1)) ∧
       c.mark = v 9 ∧ c.brk = false ∧ c.framing = !(v 11) ∧
       (c.parity = true ↔ 2 ∣ (List.range 10).countP fun k => v (k + 1)) ∧
       (c.noise = true ↔ ∃ k < 12, w.getLsbD (3 * k) ≠ w.getLsbD (3 * k + 1) ∨
         w.getLsbD (3 * k + 1) ≠ w.getLsbD (3 * k + 2))))

/-- A frame sent by a transmitter and received as it was sent is delivered, alone and whole, by an assembler in HUNT.
-/
def Obligations.FrameRoundTrip : Prop :=
  ∀ f : Frame, f.payload.length ≤ 80 →
    runAssembler .hunt (receivedClean f.wire) =
      (.hunt, List.replicate (f.payload.length + 4) .quiet ++ [.delivered f false])

/-- CHARACTER_RECEIVED: a character of twelve sampled positions, not all spacing, judged by the assembler of a line
whose receiver takes it, in HUNT and in BODY. A receiver that takes none changes nothing: one of a pair whose unit
sends (R14) or whose line is in FAULT (R17), and one, the Kiln Line's among them, that waits for marking (R2, R3). A
character taken restarts a pair's idle count, which is held while the pair stands spacing (R13), and a FRAMING one
leaves the receiver waiting for marking, on a pair where it still stands spacing. On the Kiln Line it also clears the
frame completed just before it. A frame whose check holds is delivered to its line's owner: the Poller, the Zone
Controller or the Management Handler; a discard is reported to it, as GapLimit says. That a character no receiver takes
changes nothing is the model's choice (log entry 1); that a FRAMING character on a pair that has returned to marking
leaves nothing to wait for is log entry 27; that the next character on the Kiln Line clears the frame completed just
before it is log entry 28. -/
def Obligations.CharacterJudged : Prop :=
  ∀ (l : Line) (w : Samples) (c : RxChar) (s : State), receive w = some c → c.brk = false →
    let listens := fun u : PairUnit => u.slot.isSending = false ∧ u.lineState.isFault = false ∧ u.awaitMarking = false
    let takes : Prop := match l with
      | .field => listens s.field
      | .drive => listens s.drive
      | .kiln => s.kiln.awaitMarking = false
    let assembler := match l with
      | .field => s.field.assembler
      | .drive => s.drive.assembler
      | .kiln => s.kiln.assembler
    let pair := fun (u : PairUnit) (a : Assembler) (d : Option DiscardReason) =>
      { u with
        awaitMarking := c.framing && u.pairSpacing, idle := if u.pairSpacing then .stopped else .running 24
        assembler := a, lastDiscard := d.getD u.lastDiscard }
    let left := fun (a : Assembler) (d : Option DiscardReason) => match l with
      | .field => { s with field := pair s.field a d }
      | .drive => { s with drive := pair s.drive a d }
      | .kiln => { s with
          kiln := { s.kiln with awaitMarking := c.framing, assembler := a, lastDiscard := d.getD s.kiln.lastDiscard }
          handler := { s.handler with completed := none } }
    let delivered := fun (f : Frame) (noisy : Bool) => match l with
      | .field => fieldDelivered f noisy (left .hunt none)
      | .drive => driveDelivered f (left .hunt none)
      | .kiln => kilnDelivered f noisy (left .hunt none)
    let opened : Assembler :=
      .body { address := c.data, kind := none, length := none, payload := [], check := [], crc := crcOf [c.data]
              noisy := c.noise, gap := .running 48 }
    (¬ takes → exec (.characterReceived l w) s = .next s) ∧
    (takes → assembler = .hunt →
      exec (.characterReceived l w) s = .next (left
        (if c.mark = true ∧ c.parity = false ∧ c.framing = false then opened else .hunt) none)) ∧
    (∀ r : FrameRecord, takes → assembler = .body r →
      (c.parity = true ∨ c.framing = true →
        exec (.characterReceived l w) s = .next (reportDiscard l (left .hunt (some .charError)))) ∧
      (c.parity = false → c.framing = false → c.mark = true →
        exec (.characterReceived l w) s = .next (reportDiscard l (left opened (some .truncated)))) ∧
      (c.parity = false → c.framing = false → c.mark = false →
        let r' := { r with noisy := r.noisy || c.noise, gap := .running 48, crc := crcByte r.crc c.data }
        (r.kind = none → exec (.characterReceived l w) s = .next (left (.body { r' with kind := some c.data }) none)) ∧
        (∀ k, r.kind = some k → r.length = none → c.data.toNat ≤ 80 →
          exec (.characterReceived l w) s = .next (left (.body { r' with length := some c.data.toNat }) none)) ∧
        (∀ k, r.kind = some k → r.length = none → 80 < c.data.toNat →
          exec (.characterReceived l w) s = .next (reportDiscard l (left .hunt (some .badLength)))) ∧
        (∀ k n, r.kind = some k → r.length = some n → r.payload.length < n →
          exec (.characterReceived l w) s = .next (left (.body { r' with payload := r.payload ++ [c.data] }) none)) ∧
        (∀ k n, r.kind = some k → r.length = some n → r.payload.length = n → r.check = [] →
          exec (.characterReceived l w) s = .next (left (.body { r' with check := [c.data], crc := r.crc }) none)) ∧
        (∀ k n a, r.kind = some k → r.length = some n → r.payload.length = n → r.check = [a] → r.crc = a ++ c.data →
          exec (.characterReceived l w) s = .next
            (delivered { address := r.address, kind := k, payload := r.payload } (r.noisy || c.noise))) ∧
        (∀ k n a, r.kind = some k → r.length = some n → r.payload.length = n → r.check = [a] → r.crc ≠ a ++ c.data →
          exec (.characterReceived l w) s = .next (reportDiscard l (left .hunt (some .badCheck))))))

/-- BREAK_CHARACTER on the Kiln Line: the assembler, and the break as the Handler takes it, with the admission of a
frame completed just before it taken first or the break taken first; in the second case that frame alone stands in the
queue, and a discard reason FULL of its own is taken back. A Kiln receiver that waits for marking takes none (log entry
1). BREAK_CHARACTER on a pair: in HUNT it is passed over, in BODY it discards the frame as CHAR_ERROR, which is
reported as GapLimit says; either way the idle count restarts, and on a pair that still stands spacing it is held and
the receiver waits for marking. A receiver that is closed or waits for marking takes none. That a break sets LOST for
any discarded reply to COLLECT_NOTICES, a REFUSED one among them, is read from R163 (log entry 16). A pair that
returned to marking late in the stop position leaves nothing to wait for, and on the Kiln Line the return is the
command that follows (log entry 27). A BREAK a receiver does not take changes nothing (log entry 1). -/
def Obligations.BreakCharacter : Prop :=
  ((∀ (order : BreakOrder) (s : State), s.kiln.awaitMarking = true → exec (.breakCharacter (.kiln order)) s = .next s) ∧
   (∀ (order : BreakOrder) (s : State), s.kiln.awaitMarking = false →
      let notices := { s.notices with
        lost := s.notices.lost || s.handler.replyPlace.any fun r =>
          r.frame.address == stationAddress s.straps.addr && r.requestKind == 0x57 }
      (order = .admissionFirst ∨ s.handler.completed = none →
        exec (.breakCharacter (.kiln order)) s = .next { s with
          kiln := { s.kiln with
            awaitMarking := true, assembler := .hunt
            lastDiscard := match s.kiln.assembler with | .hunt => s.kiln.lastDiscard | .body _ => .charError }
          handler := { s.handler with intake := [], klRdy := true, replyPlace := none, completed := none }
          notices := notices }) ∧
      (∀ c : CompletedFrame, order = .breakFirst → s.handler.completed = some c →
        exec (.breakCharacter (.kiln order)) s = .next { s with
          kiln := { s.kiln with awaitMarking := true, assembler := .hunt, lastDiscard := c.discardBefore }
          handler := { s.handler with intake := [c.frame], klRdy := true, replyPlace := none, completed := none }
          notices := notices }))) ∧
  (∀ (l : PairLine) (s : State),
     let u := s.unit l
     let t := s.setUnit l { u with
       awaitMarking := u.pairSpacing, idle := if u.pairSpacing then .stopped else .running 24, assembler := .hunt }
     (u.slot.isSending = true ∨ u.lineState.isFault = true ∨ u.awaitMarking = true →
       exec (.breakCharacter (.pair l)) s = .next s) ∧
     (u.slot.isSending = false → u.lineState.isFault = false → u.awaitMarking = false →
       (u.assembler = .hunt → exec (.breakCharacter (.pair l)) s = .next t) ∧
       (∀ r, u.assembler = .body r → exec (.breakCharacter (.pair l)) s =
         .next (reportDiscard (if l = .field then .field else .drive)
           (t.setUnit l { t.unit l with lastDiscard := .charError })))))

/-- SPACING_SPELL_START, SPACING_SPELL_END and KILN_LINE_MARKING_RETURN: the stuck monitor, the idle count and the
receiver's wait for marking. The monitor starts no spell while the unit sends or is in FAULT. A level change while the
unit sends sets the level alone (log entry 24). -/
def Obligations.SpellsAndMarking : Prop :=
  (∀ (l : PairLine) (s : State), (s.unit l).pairSpacing = false →
    exec (.spacingSpellStart l) s = .next (s.setUnit l { s.unit l with
      pairSpacing := true, idle := .stopped
      spell := if (s.unit l).slot.isSending ∨ (s.unit l).lineState.isFault then (s.unit l).spell
        else .running (2 ^ s.param .stuckUnit * s.param .stuckCount) })) ∧
  (∀ (l : PairLine) (s : State),
    exec (.spacingSpellEnd l) s = .next (s.setUnit l { s.unit l with
      pairSpacing := false, awaitMarking := false, spell := .stopped
      idle := if (s.unit l).slot.isSending then .stopped else .running 24 })) ∧
  (∀ s : State, exec .kilnLineMarkingReturn s = .next { s with kiln := { s.kiln with awaitMarking := false } })

/-- GAP_LIMIT_EXPIRY: in BODY the frame in progress is discarded as TRUNCATED and reported. A discard reported, for
whatever reason: an attempt in WAITING fails with CORRUPT and an exchange in WAITING ends with no answer; in every
other case, and on the Kiln Line, nothing more changes. In HUNT there is no gap timer to expire (log entry 1: nothing
changes). -/
def Obligations.GapLimit : Prop :=
  (∀ (l : Line) (s : State),
    (l = .kiln → reportDiscard l s = s) ∧
    (l = .field → (∀ st, s.poller.staging = some st → st.phase = .sending) → reportDiscard l s = s) ∧
    (l = .field → ∀ st, s.poller.staging = some st → st.phase = .waiting →
      reportDiscard l s = attemptFails st .corrupt s) ∧
    (l = .drive → (∀ x, s.zones.exchange = some x → x.phase = .sending) → reportDiscard l s = s) ∧
    (l = .drive → ∀ x, s.zones.exchange = some x → x.phase = .waiting →
      exec .driveAnswerTimeout s = .next (reportDiscard l s))) ∧
  (∀ s : State,
    (s.field.assembler = .hunt → exec (.gapLimitExpiry .field) s = .next s) ∧
    (s.drive.assembler = .hunt → exec (.gapLimitExpiry .drive) s = .next s) ∧
    (s.kiln.assembler = .hunt → exec (.gapLimitExpiry .kiln) s = .next s) ∧
    (∀ r, s.field.assembler = .body r → exec (.gapLimitExpiry .field) s = .next (reportDiscard .field
      { s with field := { s.field with assembler := .hunt, lastDiscard := .truncated } })) ∧
    (∀ r, s.drive.assembler = .body r → exec (.gapLimitExpiry .drive) s = .next (reportDiscard .drive
      { s with drive := { s.drive with assembler := .hunt, lastDiscard := .truncated } })) ∧
    (∀ r, s.kiln.assembler = .body r → exec (.gapLimitExpiry .kiln) s = .next
      { s with kiln := { s.kiln with assembler := .hunt, lastDiscard := .truncated } }))

/-- STUCK_LIMIT_EXPIRY: the line is in FAULT with its return state, and the slot and the frame in progress are dropped;
then the owner, the Sequencer and the Fault Record Set are told in the order of the command (log entry 8). The attempt
or exchange in flight has ended; on the Drive Line an unsent frame is put back or discarded as LineRestart says. The
hold cause stands in a RUNNING or HELD schedule. The Drive Queue keeps its frames: unless the schedule was RUNNING
nothing else changes in it, and in a RUNNING one, which becomes HELD, each frame pending on the Drive Line is still
there or its AUTO zone's new one is, and each zone is left as a schedule event leaves it (ScheduleEventBuilds). A
LINE_STUCK record of the line is present unless the set was full and held none. The clauses on the cause and on a
RUNNING schedule have the condition on hold causes (`CausesSound`, kept by every step) as their premise. -/
def Obligations.StuckLimit : Prop :=
  ∀ (l : PairLine) (order : FaultOrder) (limit : Nat) (s : State),
    (s.unit l).spell = .running limit → (s.unit l).lineState.isFault = false →
    let fallen := { s.unit l with
      lineState := .fault (if (s.unit l).lineState = .halted then .halted else .running)
      slot := .empty, assembler := .hunt, spell := .stopped }
    let owner := fun u : State => match l with
      | .field => { u with poller := { u.poller with
          staging := none, phase := .idle, cycleTimer := .stopped, cycleDue := false } }
      | .drive => abandonExchange u
    let cause := addCause (if l = .field then .fieldFault else .driveFault)
    let record := raiseFault (.line l) .lineStuck none
    let u := s.setUnit l fallen
    let t := match order with
      | .ownerSequencerRecord => record (cause (owner u))
      | .ownerRecordSequencer => cause (record (owner u))
      | .sequencerOwnerRecord => record (owner (cause u))
      | .sequencerRecordOwner => owner (record (cause u))
      | .recordOwnerSequencer => cause (owner (record u))
      | .recordSequencerOwner => owner (cause (record u))
    exec (.stuckLimitExpiry l order) s = .next t ∧ t.unit l = fallen ∧
    (l = .field → t.poller = { s.poller with
      staging := none, phase := .idle, cycleTimer := .stopped, cycleDue := false }) ∧
    (l = .field → { t.drive with slot := .empty } = { s.drive with slot := .empty }) ∧
    (l = .drive → t.zones.exchange = none ∧ t.poller = s.poller ∧ t.field = s.field) ∧
    (s.sequencer.state ≠ .running → t.zones = (if l = .field then s.zones else (abandonExchange s).zones)) ∧
    (CausesSound s.sequencer → s.sequencer.state = .running →
      (∀ z : Fin 8, t.zone z = (tellZones s).zone z) ∧ (l = .field → t.zones = (tellZones s).zones)) ∧
    (l = .drive → ∀ q ∈ s.zones.queue, q ∈ t.zones.queue ∨
      ((s.zone q.zone).mode = .auto ∧
        ∃ p ∈ t.zones.queue, p.zone = q.zone ∧ p.frame = (t.zone q.zone).lastBuilt)) ∧
    t.zones.envelope = s.zones.envelope ∧ t.zones.periodTimer = s.zones.periodTimer ∧
    (CausesSound s.sequencer → s.sequencer.engaged = true → t.sequencer.state = .held ∧
      t.sequencer.causes = (if l = .field then { s.sequencer.causes with fieldFault := true }
        else { s.sequencer.causes with driveFault := true })) ∧
    (s.sequencer.engaged = false → t.sequencer = s.sequencer) ∧
    ((∃ i : Fin 16, s.faults.records[i] = none ∨
        ∃ r, s.faults.records[i] = some r ∧ r.source = .line l ∧ r.reason = .lineStuck) →
      ∃ (i : Fin 16) (r : FaultRecord), t.faults.records[i] = some r ∧ r.source = .line l ∧ r.reason = .lineStuck ∧
        r.lastSeen = s.uptime ∧ r.detail = none) ∧
    t.probes = s.probes ∧ t.curves = s.curves ∧ t.estimator = s.estimator ∧ t.kiln = s.kiln ∧
    t.handler = s.handler ∧ t.params = s.params ∧ t.uptime = s.uptime ∧ t.pending = s.pending ∧ t.straps = s.straps

/-! ### Transmission -/

/-- TRANSMIT_START with a frame waiting and the idle count run out: the frame goes out whole, the receiver closed and
the idle count held; a frame in BODY is discarded as TRUNCATED. On the Drive Line the frames queued at power-up have
been handed over by then (log entry 7), which the second clause states. TRANSMIT_END: the slot empties, the idle count
restarts, a spell starts on a spacing pair, and the owner's answer window opens with the timeout read then. That the
receiver waits for marking when it reopens on a spacing pair is the model's (log entry 14). -/
def Obligations.TransmitStartAndEnd : Prop :=
  ((∀ (f : Frame) (n : Nat) (s : State), s.field.slot = .waiting f → s.field.idle = .running n →
     s.field.lineState.isFault = false → s.field.assembler = .hunt →
     exec (.transmitStart .field) s = .next { s with field := { s.field with slot := .sending f f.wire, idle := .stopped } }) ∧
   (∀ (f : Frame) (n : Nat) (r : FrameRecord) (s : State), s.field.slot = .waiting f → s.field.idle = .running n →
     s.field.lineState.isFault = false → s.field.assembler = .body r →
     exec (.transmitStart .field) s = exec (.gapLimitExpiry .field)
       { s with field := { s.field with slot := .sending f f.wire, idle := .stopped } }) ∧
   (∀ (f : Frame) (n : Nat) (s : State), (openExchange s).drive.slot = .waiting f → s.drive.idle = .running n →
     s.drive.lineState.isFault = false → s.drive.assembler = .hunt →
     exec (.transmitStart .drive) s = .next { openExchange s with
       drive := { (openExchange s).drive with slot := .sending f f.wire, idle := .stopped } }) ∧
   (∀ (f : Frame) (n : Nat) (r : FrameRecord) (s : State), (openExchange s).drive.slot = .waiting f →
     s.drive.idle = .running n → s.drive.lineState.isFault = false → s.drive.assembler = .body r →
     exec (.transmitStart .drive) s = exec (.gapLimitExpiry .drive) { openExchange s with
       drive := { (openExchange s).drive with slot := .sending f f.wire, idle := .stopped } })) ∧
  ((∀ (f : Frame) (w : List WireChar) (st : Staging) (s : State), s.field.slot = .sending f w →
     s.poller.staging = some st →
     exec (.transmitEnd .field) s = .next { s with
       field := { s.field with
         slot := .empty, awaitMarking := s.field.pairSpacing
         idle := if s.field.pairSpacing then .stopped else .running 24
         spell := if s.field.pairSpacing then .running (2 ^ s.param .stuckUnit * s.param .stuckCount) else .stopped }
       poller := { s.poller with
         staging := some { st with phase := .waiting, timeout := .running (s.param .scanAnswerTimeout) } } }) ∧
   (∀ (f : Frame) (w : List WireChar) (x : DriveExchange) (s : State), s.drive.slot = .sending f w →
     s.zones.exchange = some x →
     exec (.transmitEnd .drive) s = .next { s with
       drive := { s.drive with
         slot := .empty, awaitMarking := s.drive.pairSpacing
         idle := if s.drive.pairSpacing then .stopped else .running 24
         spell := if s.drive.pairSpacing then .running (2 ^ s.param .stuckUnit * s.param .stuckCount) else .stopped }
       zones := { s.zones with
         exchange := some { x with phase := .waiting, timeout := .running (s.param .driveAnswerTimeout) } } }))

/-- REPLY_HANDOVER and REPLY_TRANSMIT_END: a reply is handed over once the waiting place is empty, starts at once when
none is being sent, and otherwise at the stop bit of the one before it. -/
def Obligations.ReplyPath : Prop :=
  (∀ (r : Reply) (s : State), s.handler.replyPlace = some r → s.kiln.waiting = none → s.kiln.sending = none →
    exec .replyHandover s = .next { s with
      kiln := { s.kiln with sending := some { frame := r.frame, wire := r.frame.wire } }
      handler := { s.handler with replyPlace := none } }) ∧
  (∀ (r : Reply) (x : SendingReply) (s : State), s.handler.replyPlace = some r → s.kiln.waiting = none →
    s.kiln.sending = some x →
    exec .replyHandover s = .next { s with
      kiln := { s.kiln with waiting := some r.frame }, handler := { s.handler with replyPlace := none } }) ∧
  (∀ (x : SendingReply) (s : State), s.kiln.sending = some x → s.kiln.waiting = none →
    exec .replyTransmitEnd s = .next { s with kiln := { s.kiln with sending := none } }) ∧
  (∀ (x : SendingReply) (g : Frame) (s : State), s.kiln.sending = some x → s.kiln.waiting = some g →
    exec .replyTransmitEnd s = .next { s with
      kiln := { s.kiln with sending := some { frame := g, wire := g.wire }, waiting := none } })

/-! ### Polling -/

/-- A cycle start, from any phase: the next cycle number taken, cycle due cleared and the timer rearmed; the lowest
node that is due (ONLINE, or ABSENT in a cycle whose number is a multiple of 8) is visited with a first attempt, and a
cycle in which no node is due closes at once. CYCLE_TIMER_EXPIRY of a running timer, by the Poller's phase: in IDLE a
cycle starts; in CYCLING cycle due is set and the timer is not rearmed: it is stopped (log entry 20). In DRAINING no
timer runs, and a stopped timer does not expire: the model changes nothing there (log entry 1). -/
def Obligations.CycleTimer : Prop :=
  (∀ s : State,
    let due := fun n : Fin 16 => (s.node n).state = .online ∨
      ((s.node n).state = .absent ∧ s.poller.nextCycle.toNat % 8 = 0)
    let scanOf := fun n : Fin 16 =>
      ({ address := 0x40 + BitVec.ofNat 8 n.val, kind := 0x21,
         payload := [s.poller.nextTag, highByte (s.node n).mask, lowByte (s.node n).mask] } : Frame)
    let started := { s.poller with
      phase := .cycling, cycleDue := false, currentCycle := some s.poller.nextCycle
      nextCycle := s.poller.nextCycle + 1, cycleTimer := .running (s.param .cyclePeriod), visitPos := 0 }
    (∀ n : Fin 16, due n → (∀ m : Fin 16, m < n → ¬ due m) → s.field.lineState.isFault = false →
      startCycle s = { s with
        poller := { started with
          visitPos := n.val + 1, nextTag := s.poller.nextTag + 1
          staging := some { node := n, retries := 0, tag := s.poller.nextTag, mask := (s.node n).mask, phase := .sending,
                            nextPart := 0, entries := [], temp := none, noisy := false, timeout := .stopped,
                            lost := false } }
        field := { s.field with slot := .waiting (scanOf n) } }) ∧
    ((∀ n : Fin 16, ¬ due n) →
      let closed := closeEstimate { s with poller := started }
      startCycle s = { closed with poller := { closed.poller with phase := .idle } })) ∧
  (∀ (limit : Nat) (s : State), s.poller.cycleTimer = .running limit →
    (s.poller.phase = .idle → exec .cycleTimerExpiry s = .next (startCycle s)) ∧
    (s.poller.phase = .cycling → exec .cycleTimerExpiry s =
      .next { s with poller := { s.poller with cycleDue := true, cycleTimer := .stopped } }) ∧
    (s.poller.phase = .draining → exec .cycleTimerExpiry s = .next s)) ∧
  (∀ s : State, s.poller.cycleTimer = .stopped → exec .cycleTimerExpiry s = .next s)

/-- A miss: the count rises, held at 15; at the limit an ONLINE node becomes ABSENT, its SETTLING, ACTIVE and SUSPECT
probes become STALE, and NODE_ABSENT is raised with the count; an ABSENT node raises it again. A failed attempt, for
any reason: the node's last outcome takes it. A node that became VACANT has nothing applied, and a draining cycle makes
no retry and counts no miss; otherwise a retry is sent with a new tag and the mask as it stands while retries remain,
and without one the visit ends with a miss. The end of a visit: in CYCLING the lowest node from the visiting position
on that is due is visited with a first attempt, and without one the cycle closes, and the next cycle starts at once
when cycle due is set; in DRAINING the cycle ends without a close. SCAN_ANSWER_TIMEOUT: an attempt in WAITING fails
with NO_ANSWER; without one nothing changes (log entry 1). -/
def Obligations.ScanTimeoutAndMiss : Prop :=
  (∀ (n : Fin 16) (s : State),
     let m := min ((s.node n).misses + 1) 15
     let counted := s.setNode n { s.node n with misses := m }
     ((s.node n).state = .online → m < s.param .missLimit → nodeMiss n s = counted) ∧
     ((s.node n).state = .absent → nodeMiss n s = raiseFault (.node n) .nodeAbsent (some m) counted) ∧
     ((s.node n).state = .online → s.param .missLimit ≤ m →
       ∃ t, nodeMiss n s = raiseFault (.node n) .nodeAbsent (some m) t ∧
         t.node n = { s.node n with misses := m, state := .absent } ∧ (∀ k, k ≠ n → t.node k = s.node k) ∧
         (∀ i : Fin 192, t.probe i =
           if (∃ p, (s.probe i).mapping = some p ∧ p.node = n) ∧
             ((s.probe i).state = .settling ∨ (s.probe i).state = .active ∨ (s.probe i).state = .suspect)
           then { s.probe i with state := .stale } else s.probe i) ∧
         t.faults = s.faults ∧ t.notices = s.notices ∧ t.poller.staging = s.poller.staging ∧
         t.sequencer = s.sequencer ∧ t.zones = s.zones ∧ t.estimator = s.estimator ∧ t.field = s.field)) ∧
  ((∀ (st : Staging) (o : ScanOutcome) (s : State),
      let t := s.setNode st.node { s.node st.node with lastOutcome := o }
      let scan : Frame :=
        { address := 0x40 + BitVec.ofNat 8 st.node.val, kind := 0x21,
          payload := [s.poller.nextTag, highByte (s.node st.node).mask, lowByte (s.node st.node).mask] }
      (st.lost = true → attemptFails st o s = endVisit s) ∧
      (st.lost = false → s.poller.phase = .draining → attemptFails st o s = endVisit t) ∧
      (st.lost = false → s.poller.phase ≠ .draining → st.retries < s.param .retryLimit →
        s.field.lineState.isFault = false →
        attemptFails st o s = { t with
          poller := { t.poller with
            nextTag := s.poller.nextTag + 1
            staging := some { node := st.node, retries := st.retries + 1, tag := s.poller.nextTag
                              mask := (s.node st.node).mask, phase := .sending, nextPart := 0, entries := []
                              temp := none, noisy := false, timeout := .stopped, lost := false } }
          field := { s.field with slot := .waiting scan } }) ∧
      (st.lost = false → s.poller.phase ≠ .draining → s.param .retryLimit ≤ st.retries →
        attemptFails st o s = endVisit (nodeMiss st.node t))) ∧
   (∀ (c : Word16) (s : State), s.poller.currentCycle = some c →
      let t := { s with poller := { s.poller with staging := none } }
      let idled := fun u : State => { u with poller := { u.poller with phase := .idle } }
      let due := fun n : Fin 16 => s.poller.visitPos ≤ n.val ∧
        ((s.node n).state = .online ∨ ((s.node n).state = .absent ∧ c.toNat % 8 = 0))
      (∀ n : Fin 16, s.poller.phase = .cycling → due n → (∀ m : Fin 16, m < n → ¬ due m) →
        s.field.lineState.isFault = false →
        endVisit s = { t with
          poller := { t.poller with
            visitPos := n.val + 1, nextTag := s.poller.nextTag + 1
            staging := some { node := n, retries := 0, tag := s.poller.nextTag, mask := (s.node n).mask, phase := .sending,
                              nextPart := 0, entries := [], temp := none, noisy := false, timeout := .stopped,
                              lost := false } }
          field := { s.field with
            slot := .waiting { address := 0x40 + BitVec.ofNat 8 n.val, kind := 0x21,
                               payload := [s.poller.nextTag, highByte (s.node n).mask, lowByte (s.node n).mask] } } }) ∧
      (s.poller.phase = .cycling → (∀ n : Fin 16, ¬ due n) →
        endVisit s = if s.poller.cycleDue then startCycle (closeEstimate t) else idled (closeEstimate t)) ∧
      (s.poller.phase = .draining → endVisit s = if s.poller.cycleDue then startCycle t else idled t)) ∧
   (∀ s : State,
      (∀ st, s.poller.staging = some st → st.phase = .waiting →
        exec .scanAnswerTimeout s = .next (attemptFails st .noAnswer s)) ∧
      ((∀ st, s.poller.staging = some st → st.phase = .sending) → exec .scanAnswerTimeout s = .next s)))

/-- A frame delivered on the Field Line: ignored while no attempt is in flight, before the answer window, from another
address, of another kind or with another tag; CORRUPT at an empty or a wrong length; a duplicate part restarts the
timing, a part too far ends the attempt as OUT_OF_ORDER, and the part expected is staged, or with LAST goes on to the
commit check. -/
def Obligations.SampleScreened : Prop :=
  (∀ (f : Frame) (noisy : Bool) (s : State), s.poller.staging = none → fieldDelivered f noisy s = s) ∧
  (∀ (st : Staging) (p : List Byte) (a k : Byte) (noisy : Bool) (s : State), s.poller.staging = some st →
       let f : Frame := { address := a, kind := k, payload := p }
       let limit := Timer.running (s.param .scanAnswerTimeout)
       let index := (byteAt p 1).toNat % 4
       let sized := p.length = 4 ∨ p.length = 7 ∨ p.length = 10 ∨ p.length = 13 ∨ p.length = 16
       let reported := (byteAt p 2 ++ byteAt p 3).toInt
       let entries := (List.range ((p.length - 4) / 3)).map fun j =>
         ({ channel := (byteAt p (4 + 3 * j)).toNat
            code := ((byteAt p (5 + 3 * j)).toNat * 256 + (byteAt p (6 + 3 * j)).toNat) % 4096
            status := ChannelStatus.ofCode ((byteAt p (5 + 3 * j)).toNat / 64) } : ChannelEntry)
       let taken := { st with
         entries := st.entries ++ entries, noisy := st.noisy || noisy, nextPart := st.nextPart + 1, timeout := limit
         temp := some { value := if reported < -400 then -400 else if 1500 < reported then 1500 else reported
                        fault := (byteAt p 1).getLsbD 6 } }
       let staged := fun x : Staging => { s with poller := { s.poller with staging := some x } }
       let mine := st.phase = .waiting ∧ a = 0x40 + BitVec.ofNat 8 st.node.val ∧ k = 0x22
       let tagged := mine ∧ p ≠ [] ∧ byteAt p 0 = st.tag
       (¬ mine → fieldDelivered f noisy s = s) ∧
       (mine → p = [] → fieldDelivered f noisy s = attemptFails st .corrupt s) ∧
       (mine → p ≠ [] → byteAt p 0 ≠ st.tag → fieldDelivered f noisy s = s) ∧
       (tagged → ¬ sized → fieldDelivered f noisy s = attemptFails st .corrupt s) ∧
       (tagged → sized → index < st.nextPart → fieldDelivered f noisy s = staged { st with timeout := limit }) ∧
       (tagged → sized → st.nextPart < index → fieldDelivered f noisy s = attemptFails st .outOfOrder s) ∧
       (tagged → sized → index = st.nextPart →
         ((byteAt p 1).getLsbD 7 = false → fieldDelivered f noisy s = staged taken) ∧
         ((byteAt p 1).getLsbD 7 = true → scanWhole st.mask taken.entries = false →
           fieldDelivered f noisy s = attemptFails taken .incomplete (staged taken)) ∧
         ((byteAt p 1).getLsbD 7 = true → scanWhole st.mask taken.entries = true → st.lost = true →
           fieldDelivered f noisy s = endVisit (staged taken)) ∧
         ((byteAt p 1).getLsbD 7 = true → scanWhole st.mask taken.entries = true → st.lost = false →
           fieldDelivered f noisy s = endVisit (commitScan taken (staged taken)))))

/-- The commit check: every channel of the mask among the entries exactly once, and no entry outside the mask. A
committed scan: the node's temperature, scan minute, misses, outcome, state and marginal count, the other nodes, and
the probes of other nodes; a node that was ABSENT returns, and its STALE probes settle again. Then the faults
NODE_MARGINAL and NODE_TEMP_FAULT as their tests raise them, and the entries in ascending channel: each goes to the
probe that holds the node and channel, or is dropped; the probe records and judges it, with the parameters and the
conversion of that moment, and raises the faults of its judgement. -/
def Obligations.ScanCommit : Prop :=
  (∀ (mask : BitVec 16) (es : List ChannelEntry),
     scanWhole mask es = true ↔
       (∀ c < 16, mask.getLsbD c = true → ∃! j : Fin es.length, es[j].channel = c) ∧
       (∀ e ∈ es, e.channel < 16 ∧ mask.getLsbD e.channel = true)) ∧
  ((∀ (st : Staging) (s : State),
      let t := commitScan st s
      let e := s.node st.node
      let count := min (e.marginal + 1) 15
      let node := { e with
        lastTemp := st.temp, lastScanMinute := some s.uptime, misses := 0, lastOutcome := .committed
        state := if e.state = .absent then .online else e.state
        marginal := if st.noisy then count else 0 }
      let returns := fun i : Fin 192 => e.state = .absent ∧ (s.probe i).state = .stale ∧
        ∃ m, (s.probe i).mapping = some m ∧ m.node = st.node
      (∃ u : State,
        u = { s with poller := { s.poller with nodes := s.poller.nodes.set st.node node }, probes := u.probes } ∧
        (∀ i : Fin 192, (returns i → u.probe i = { s.probe i with
            state := .settling, manual := false, filtered := none, held := none, progress := 0, streak := 0 }) ∧
          (¬ returns i → u.probe i = s.probe i)) ∧
        let marginal := if st.noisy = true ∧ s.param .marginalLimit ≤ count
          then raiseFault (.node st.node) .nodeMarginal (some count) u else u
        let warned := match st.temp with
          | some { value := x, fault := true } => raiseFault (.node st.node) .nodeTempFault (some x) marginal
          | _ => marginal
        t = (List.finRange 16).foldl (fun v c => handEntry st.node c st.entries v) warned) ∧
      t.node st.node = node ∧ (∀ n : Fin 16, n ≠ st.node → t.node n = s.node n) ∧
      (∀ i : Fin 192, (∀ m, (s.probe i).mapping = some m → m.node ≠ st.node) → t.probe i = s.probe i) ∧
      (∀ i : Fin 192, (t.probe i).mapping = (s.probe i).mapping ∧ (t.probe i).isMapped = (s.probe i).isMapped) ∧
      t = { s with poller := { s.poller with nodes := t.poller.nodes }, probes := t.probes, faults := t.faults
                   notices := t.notices }) ∧
   (∀ (n c : Fin 16) (es : List ChannelEntry) (s : State),
      let holds := fun i : Fin 192 => (s.probe i).isMapped = true ∧
        ∃ m, (s.probe i).mapping = some m ∧ m.node = n ∧ m.channel = c
      ((∀ x ∈ es, x.channel ≠ c.val) ∨ (∀ i, ¬ holds i) → handEntry n c es s = s) ∧
      (∀ (pre post : List ChannelEntry) (x : ChannelEntry) (i : Fin 192), es = pre ++ x :: post → x.channel = c.val →
        (∀ y ∈ pre, y.channel ≠ c.val) → holds i → (∀ j, j < i → ¬ holds j) →
        handEntry n c es s = takeReading i { code := x.code, status := x.status } s)) ∧
   (∀ (i : Fin 192) (r : Reading) (s : State),
      let e := s.probe i
      let takes := e.state = .settling ∨ e.state = .active ∨ e.state = .suspect ∨ e.state = .excluded
      (∀ m, e.mapping = some m → takes →
        let judged := e.takeReading
          { jump := s.param .jumpLimit, settle := s.param .settleCount, reject := s.param .rejectLimit
            weight := s.param .filterWeight, minute := s.uptime } r (s.convert m r.code)
        takeReading i r s = judged.2.foldl (fun u f => raiseFault (.probe i) f.1 (some f.2) u)
          { s with probes := s.probes.set i judged.1 }) ∧
      (e.mapping = none ∨ ¬ takes → takeReading i r s = s)))

/-! ### Readings and figures -/

/-- A filter update: the difference times the weight over 16, rounded with halves away from zero and at least 1 where
the two differ; so the figure never leaves the span from the old figure to the reading, and weight 16 takes the
reading, as any weight does at a difference of 1. Judging a reading changes a filtered MC in no other way than by this
update or by setting it to the reading, and the first acceptance in SETTLING and a re-level set it. -/
def Obligations.FilterUpdate : Prop :=
  (∀ f m k : Nat,
    (f ≤ m → filterUpdate f m k = if f = m then f else f + max 1 (((m - f) * k + 8) / 16)) ∧
    (m < f → k ≤ 16 → filterUpdate f m k = f - max 1 (((f - m) * k + 8) / 16)) ∧
    (k ≤ 16 → min f m ≤ filterUpdate f m k ∧ filterUpdate f m k ≤ max f m) ∧
    (f ≠ m → k ≤ 16 → filterUpdate f m k ≠ f) ∧ filterUpdate f m 16 = m ∧
    (f + 1 = m ∨ m + 1 = f → k ≤ 16 → filterUpdate f m k = m)) ∧
  (∀ (j : JudgeRules) (e : ProbeEntry) (r : Reading) (v : Conversion),
    let g := (e.takeReading j r v).1.filtered
    (g = e.filtered ∨ (r.status = .valid ∧ (e.state = .settling ∨ e.state = .active ∨ e.state = .suspect) ∧
      (g = some v.mc ∨ ∃ f, e.filtered = some f ∧ g = some (filterUpdate f v.mc j.weight)))) ∧
    (r.status = .valid → e.state = .settling → e.filtered = none → g = some v.mc) ∧
    (∀ f h, r.status = .valid → e.state = .suspect → e.filtered = some f →
      ¬ (f ≤ v.mc + j.jump ∧ v.mc ≤ f + j.jump) → e.held = some h → (h ≤ v.mc + j.jump ∧ v.mc ≤ h + j.jump) →
      g = some v.mc))

/-- A reading judged by an entry in SETTLING, ACTIVE, SUSPECT or EXCLUDED, with the jump limit, settle count, reject
limit, weight and minute of `j`: the entry it leaves and the faults it raises, in order. Each status but VALID rejects
for its own reason, and each reason has its own fault. -/
def Obligations.ReadingJudged : Prop :=
  [ChannelStatus.valid, .openCircuit, .short, .guarded].map (·.rejects) =
    [none, some .openCircuit, some .short, some .guarded] ∧
  [RejectReason.openCircuit, .short, .guarded, .jump].map (fun r => (r.fault, r.code)) =
    [(.probeOpen, 1), (.probeShort, 2), (.probeGuard, 3), (.probeJump, 4)] ∧
  ∀ (j : JudgeRules) (e : ProbeEntry) (r : Reading) (v : Conversion),
    let near := fun a b : Nat => a ≤ b + j.jump ∧ b ≤ a + j.jump
    let valid := { e with reading := some r, conversion := some v }
    let other := { e with reading := some r, conversion := none }
    let streak := min (e.streak + 1) 15
    (r.status = .valid → e.state = .settling →
      e.takeReading j r v = ({ valid with
        filtered := some ((e.filtered.map fun f => filterUpdate f v.mc j.weight).getD v.mc)
        progress := min (e.progress + 1) 8, streak := 0, lastAccepted := some j.minute
        state := if j.settle ≤ min (e.progress + 1) 8 then .active else .settling }, [])) ∧
    (∀ why, r.status.rejects = some why → e.state = .settling →
      e.takeReading j r v = ({ other with
          progress := 0, streak := streak, lastReject := some why
          state := if j.reject ≤ streak then .excluded else .settling },
        (why.fault, r.code) :: if j.reject ≤ streak then [(.probeExcluded, why.code)] else [])) ∧
    (∀ f, r.status = .valid → e.state = .active → e.filtered = some f → near f v.mc →
      e.takeReading j r v = ({ valid with
        filtered := some (filterUpdate f v.mc j.weight), streak := 0, lastAccepted := some j.minute }, [])) ∧
    (∀ f, r.status = .valid → e.state = .active → e.filtered = some f → ¬ near f v.mc →
      e.takeReading j r v = ({ valid with
          streak := 1, held := some v.mc, lastReject := some .jump
          state := if j.reject ≤ 1 then .excluded else .suspect },
        (.probeJump, v.mc) :: if j.reject ≤ 1 then [(.probeExcluded, 4)] else [])) ∧
    (∀ why, r.status.rejects = some why → e.state = .active →
      e.takeReading j r v = ({ other with
          streak := 1, held := none, lastReject := some why
          state := if j.reject ≤ 1 then .excluded else .suspect },
        (why.fault, r.code) :: if j.reject ≤ 1 then [(.probeExcluded, why.code)] else [])) ∧
    (∀ f, r.status = .valid → e.state = .suspect → e.filtered = some f → near f v.mc →
      e.takeReading j r v = ({ valid with
        filtered := some (filterUpdate f v.mc j.weight), streak := 0, held := none, lastAccepted := some j.minute
        state := .active }, [])) ∧
    (∀ f h, r.status = .valid → e.state = .suspect → e.filtered = some f → ¬ near f v.mc → e.held = some h →
      near h v.mc →
      e.takeReading j r v = ({ valid with
        filtered := some v.mc, streak := 0, held := none, lastAccepted := some j.minute, state := .active }, [])) ∧
    (∀ f, r.status = .valid → e.state = .suspect → e.filtered = some f → ¬ near f v.mc →
      (∀ h, e.held = some h → ¬ near h v.mc) →
      e.takeReading j r v = ({ valid with
          streak := streak, held := some v.mc, lastReject := some .jump
          state := if j.reject ≤ streak then .excluded else .suspect },
        (.probeJump, v.mc) :: if j.reject ≤ streak then [(.probeExcluded, 4)] else [])) ∧
    (∀ why, r.status.rejects = some why → e.state = .suspect →
      e.takeReading j r v = ({ other with
          streak := streak, held := none, lastReject := some why
          state := if j.reject ≤ streak then .excluded else .suspect },
        (why.fault, r.code) :: if j.reject ≤ streak then [(.probeExcluded, why.code)] else [])) ∧
    (r.status = .valid → e.state = .excluded → e.takeReading j r v = (valid, [])) ∧
    (∀ why, r.status.rejects = some why → e.state = .excluded → e.takeReading j r v = (other, []))

/-- The temperature source of a conversion: the node's last temperature when it is VALID, else the zone's last dry-bulb
when its status is fresh, else the published dry-bulb while the schedule is RUNNING or HELD, else 200. The correction:
the temperature clamped into 0..1200, the code moved by Kt × (T − 200) / 100 rounded, and clamped into 0..4095. On a
sound curve: the end figures with WET_END and DRY_END outside the ends, and within them the rounded figure on the
segment that holds the corrected code, without a flag. So the figure lies between the curve's ends, does not rise with
the code, and with a coefficient does not rise with the temperature. -/
def Obligations.ConversionMonotone : Prop :=
  (∀ (p : Profile) (src src' : TempSource) (t t' : Int) (code code' : Nat) (a b : CurvePoint),
    curveOk p.points = true → p.points.head? = some a → p.points.getLast? = some b →
    (b.mc ≤ (convertOn p src t code).mc ∧ (convertOn p src t code).mc ≤ a.mc) ∧
    (code ≤ code' → (convertOn p src' t code').mc ≤ (convertOn p src t code).mc) ∧
    (t ≤ t' → 0 < p.kt → (convertOn p src' t' code).mc ≤ (convertOn p src t code).mc)) ∧
  (∀ (s : State) (m : Mapping) (code : Nat),
    let c := s.convert m code
    let on := convertOn s.curves[m.profile]
    let zone := s.zone m.zone
    let valid := ∃ x, (s.node m.node).lastTemp = some x ∧ x.fault = false
    let fresh := zone.lastStatus ≠ none ∧ zone.age ≤ 2
    (∀ x, (s.node m.node).lastTemp = some x → x.fault = false → c = on .node x.value code) ∧
    (∀ d, ¬ valid → zone.lastStatus = some d → zone.age ≤ 2 → c = on .zoneMeasured d.dry code) ∧
    (∀ w d, ¬ valid → ¬ fresh → s.sequencer.engaged = true → s.sequencer.working = some w → RoundedQuotient d w 10 →
      c = on .setpoint d code) ∧
    (¬ valid → ¬ fresh → s.sequencer.engaged = false → c = on .reference 200 code)) ∧
  (∀ (p : Profile) (src : TempSource) (t : Int) (code : Nat),
    let c := convertOn p src t code
    let clamped := if t < 0 then 0 else if 1200 < t then 1200 else t
    (∃ k : Int, RoundedQuotient k (p.kt * (clamped - 200)) 100 ∧
      (c.corrected : Int) = if code + k < 0 then 0 else if 4095 < code + k then 4095 else code + k) ∧
    c.source = src ∧
    (∀ a b : CurvePoint, curveOk p.points = true → p.points.head? = some a → p.points.getLast? = some b →
      (c.corrected < a.code → c.mc = a.mc ∧ c.flag = .wetEnd) ∧
      (b.code < c.corrected → c.mc = b.mc ∧ c.flag = .dryEnd) ∧
      (c.corrected = b.code → c.mc = b.mc ∧ c.flag = .none) ∧
      (∀ (i : Nat) (x y : CurvePoint), p.points[i]? = some x → p.points[i + 1]? = some y → x.code ≤ c.corrected →
        c.corrected < y.code → c.flag = .none ∧
          RoundedQuotient ((c.mc : Int) - x.mc) (((y.mc : Int) - x.mc) * ((c.corrected : Int) - x.code))
            (y.code - x.code))))

/-- The Wet Ranking of an Estimate: exactly the ACTIVE and SUSPECT probes, each once with its figure, zone and HELD
mark, in descending figure and, at equal figures, ascending probe number. Its premises are the two conditions on the
Probe Table that every step keeps. -/
def Obligations.WetRanking : Prop :=
  ∀ s : State, ProbesSound s.probes → FiguresSound s.probes →
    let ranking := (formEstimate s).ranking
    ranking.Pairwise (fun x y => y.mc < x.mc ∨ (x.mc = y.mc ∧ x.probe < y.probe)) ∧
    (ranking.map (·.probe)).Nodup ∧ ranking.length ≤ 192 ∧
    (∀ i : Fin 192, (∃ x ∈ ranking, x.probe = i) ↔
      ((s.probe i).state = .active ∨ (s.probe i).state = .suspect)) ∧
    (∀ x ∈ ranking, (s.probe x.probe).filtered = some x.mc ∧
      (s.probe x.probe).mapping.map (·.zone) = some x.zone ∧ x.held = ((s.probe x.probe).state == .suspect))

/-- The figures of an Estimate: the contributors and those of them with the HELD mark counted (R90), SUFFICIENT by the
test on n − D, the charge CMC as the rounded mean of the window of ranks, spread, wettest, driest, mean and the zone
figures, whose counts add up to n; and the CMC lies between the driest and wettest figure of the ranking, a zone CMC
between figures of the zone's contributors. -/
def Obligations.EstimateFigures : Prop :=
  ∀ s : State, ParamsSound s.params →
    let e := formEstimate s
    let x := e.ranking.map (·.mc)
    let d := s.param .chargeDiscard
    let w := s.param .wetCount
    let dz := s.param .zoneDiscard
    let figures := fun z : Fin 8 => (e.ranking.filter fun r => r.zone == z).map (·.mc)
    e.ranking = rankOf (contributors s) ∧ e.n = x.length ∧ e.heldCount = (e.ranking.filter (·.held)).length ∧
    ((x.length : Int) - d < s.param .chargeMinimum →
      e.sufficient = false ∧ e.chargeCmc = none ∧ e.spread = none) ∧
    ((s.param .chargeMinimum : Int) ≤ x.length - d →
      e.sufficient = true ∧ (∃ c, e.chargeCmc = some c ∧ RoundedMean c ((x.drop d).take w)) ∧
      e.spread = some (x.getD d 0 - x.getLastD 0)) ∧
    e.wettest = x.head? ∧ e.driest = x.getLast? ∧
    (x = [] → e.mean = none) ∧ (x ≠ [] → ∃ c, e.mean = some c ∧ RoundedMean c x) ∧
    (∀ z : Fin 8, e.zoneCount[z] = (figures z).length ∧
      (((figures z).length : Int) - dz < s.param .zoneMinimum → e.zoneCmc[z] = none) ∧
      ((s.param .zoneMinimum : Int) ≤ (figures z).length - dz →
        ∃ c, e.zoneCmc[z] = some c ∧ RoundedMean c (((figures z).drop dz).take w))) ∧
    ((List.finRange 8).map fun z : Fin 8 => e.zoneCount[z]).sum = e.n ∧
    (∀ c, e.chargeCmc = some c → ∃ a b, e.driest = some a ∧ e.wettest = some b ∧ a ≤ c ∧ c ≤ b) ∧
    (∀ (z : Fin 8) (c : Nat), e.zoneCmc[z] = some c →
      (∃ a ∈ figures z, a ≤ c) ∧ (∃ b ∈ figures z, c ≤ b))

/-- A cycle close: the Estimate formed is kept under the next sequence number, the zones found lagging in a RUNNING
schedule by a SUFFICIENT Estimate have their flags set, each with a notice when its flag was clear, in ascending zone,
and then the Sequencer takes the Estimate. -/
def Obligations.EstimateClosed : Prop :=
  ∀ s : State, ∃ flags : Vector Bool 8,
    let e := formEstimate s
    let lags := fun z : Fin 8 => s.sequencer.state = .running ∧ e.sufficient = true ∧
      ∃ zc cc, e.zoneCmc[z] = some zc ∧ e.chargeCmc = some cc ∧ cc + s.param .zoneLagLimit < zc
    (∀ z : Fin 8, flags[z] = true ↔ s.estimator.lagFlags[z] = true ∨ lags z) ∧
    e.sequence = s.estimator.nextSequence ∧ e.cycle = s.poller.currentCycle.getD 0 ∧ e.uptime = s.uptime ∧
    e.chargeMinute = (if s.sequencer.engaged then some s.sequencer.chargeMinute else none) ∧
    closeEstimate s = takeEstimate e { s with
      estimator := { current := some e, nextSequence := s.estimator.nextSequence + 1, lagFlags := flags }
      notices := ((List.finRange 8).filter fun z => flags[z] && !s.estimator.lagFlags[z]).foldl
        (fun q z => q.add { kind := .zoneLag, subject := z.val, minute := s.uptime, value1 := e.zoneCmc[z]
                            value2 := e.chargeCmc }) s.notices }

/-! ### Zones and the Drive Line -/

/-- The envelope: dry pair, depression pair, wet pair and wet not above dry, each stage on what the one before left,
with the marks; so the dry-bulb lies in an enabled dry pair and the wet-bulb is never above it. -/
def Obligations.EnvelopeClamp : Prop :=
  ∀ (e : Envelope) (sp : Setpoints),
    let out := clampSetpoints e sp
    let dry := if e.dryCeiling < e.dryFloor then sp.dry else if sp.dry < e.dryFloor then e.dryFloor
      else if e.dryCeiling < sp.dry then e.dryCeiling else sp.dry
    let dep := dry - sp.wet
    let wet2 := if e.depMax < e.depMin then sp.wet else if dep < e.depMin then dry - e.depMin
      else if e.depMax < dep then dry - e.depMax else sp.wet
    let wet3 := if e.wetCeiling < e.wetFloor then wet2 else if wet2 < e.wetFloor then e.wetFloor
      else if e.wetCeiling < wet2 then e.wetCeiling else wet2
    let wet4 := if dry < wet3 then dry else wet3
    out.1.dry = dry ∧ out.1.wet = wet4 ∧ (out.2.dry = true ↔ dry ≠ sp.dry) ∧
    (out.2.depression = true ↔ wet2 ≠ sp.wet) ∧ (out.2.wet = true ↔ wet3 ≠ wet2 ∨ wet4 ≠ wet3) ∧
    out.1.wet ≤ out.1.dry ∧
    (e.dryFloor ≤ e.dryCeiling → e.dryFloor ≤ out.1.dry ∧ out.1.dry ≤ e.dryCeiling)

/-- A schedule event builds one frame for each zone in AUTO and touches no other zone's entry: a SCHEDULE frame of the
current step while the schedule is RUNNING or HELD, an IDLE frame otherwise, clamped, with the zone's tag. The first
clamped frame of a zone's run raises ENVELOPE_CLAMP, in ascending zone. In the Drive Queue each new frame replaces its
zone's pending frame in place, or joins the back in ascending zone, and all others keep their places; with no exchange
in flight on a RUNNING line and an empty queue the first is handed over. The frames queued at power-up are handed over
before (log entry 7). Premise of the places: one frame at most for a zone, which every step keeps. -/
def Obligations.ScheduleEventBuilds : Prop :=
  ∀ s : State,
    let t := tellZones s
    let auto := fun z : Fin 8 => (s.zone z).mode = .auto
    let idle : SetpointFrame := { tag := 0, origin := .idle, fanRun := false, direction := .forward, stage := .none,
                                  setpoints := none, marks := noMarks }
    let entry := fun z : Fin 8 => ({ zone := z, frame := (t.zone z).lastBuilt, modeAtBuild := .auto } : QueuedFrame)
    let queue := s.zones.queue.map (fun q => if auto q.zone then entry q.zone else q) ++
      ((List.finRange 8).filter fun z => decide (auto z) && s.zones.queue.all fun q => q.zone != z).map entry
    [StepKind.heatUp, .dry, .equalize, .condition, .cool].map (·.stage) = [.heatUp, .dry, .equalize, .condition, .cool] ∧
    (∀ z : Fin 8, ¬ auto z → t.zone z = s.zone z) ∧
    (∀ z : Fin 8, auto z → s.sequencer.engaged = false →
      t.zone z = { s.zone z with
        lastBuilt := { idle with tag := (s.zone z).nextTag }, nextTag := (s.zone z).nextTag + 1
        clampedLast := false }) ∧
    (s.sequencer.engaged = false → t.notices = s.notices) ∧
    (∀ (r : StepRecord) (w : Int), s.sequencer.engaged = true → s.sequencer.currentStep = some r →
      s.sequencer.working = some w →
      let c := clampSetpoints s.zones.envelope
        { dry := roundDiv w 10, wet := max 0 (roundDiv w 10 - r.depression) }
      (∀ z : Fin 8, auto z → t.zone z = { s.zone z with
        lastBuilt := { tag := (s.zone z).nextTag, origin := .schedule, fanRun := true, direction := s.sequencer.fan
                       stage := r.kind.stage, setpoints := some c.1, marks := c.2 }
        nextTag := (s.zone z).nextTag + 1, clampedLast := c.2.any }) ∧
      t.notices = ((List.finRange 8).filter fun z => decide (auto z) && c.2.any && !(s.zone z).clampedLast).foldl
        (fun q z => q.add { kind := .envelopeClamp, subject := z.val, minute := s.uptime, value1 := some c.2.code
                            value2 := some 1 }) s.notices) ∧
    ((∀ z, ¬ auto z) → t = s) ∧
    (QueueSound s.zones → s.zones.exchange ≠ none ∨ s.drive.lineState ≠ .running →
      t.zones.queue = queue ∧ t.zones.exchange = s.zones.exchange ∧ t.drive = s.drive) ∧
    (∀ (q : QueuedFrame) (rest : List QueuedFrame), s.zones.exchange = none → s.drive.lineState = .running →
      s.zones.queue = [] → queue = q :: rest →
      t.zones.queue = rest ∧ t.zones.exchange = some { entry := q, phase := .sending, timeout := .stopped } ∧
      t.drive = { s.drive with slot := .waiting (q.frame.toFrame q.zone) }) ∧
    ((∃ z, auto z) → t = tellZones (openExchange s)) ∧
    (∀ z : Fin 8, auto z →
      (∃ q ∈ t.zones.queue, q.zone = z ∧ q.frame = (t.zone z).lastBuilt) ∨
      (∃ x, t.zones.exchange = some x ∧ x.entry.zone = z ∧ x.entry.frame = (t.zone z).lastBuilt)) ∧
    t = { s with zones := t.zones, drive := { s.drive with slot := t.drive.slot }, notices := t.notices } ∧
    t.zones.envelope = s.zones.envelope ∧ t.zones.periodTimer = s.zones.periodTimer

/-- DRIVE_PERIOD_EXPIRY: the timer is rearmed with the period read then, the age of every zone with a status rises,
held at 255, and each zone in AUTO, and each in MANUAL with a record, has a frame built, which then stands in the Drive
Queue or is the exchange in flight: an IDLE or SCHEDULE frame by the schedule state in AUTO, a SUPERVISOR frame of the
record in MANUAL, clamped into the envelope, with the zone's tag. The first clamped frame of a zone's run raises
ENVELOPE_CLAMP, in ascending zone, and without one the notices are kept. In the Drive Queue each new frame replaces its
zone's pending frame in place, or joins the back in ascending zone, and all others keep their places; an exchange in
flight is kept, and without one the oldest frame is then handed over (ExchangeOpens). The frames queued at power-up are
handed over before (log entry 7). Premise of the places: one frame at most for a zone, which every step keeps. -/
def Obligations.DrivePeriod : Prop :=
  ∀ s : State, ∃ t : State, exec .drivePeriodExpiry s = .next t ∧
    let builds := fun z : Fin 8 => (s.zone z).mode == .auto || ((s.zone z).mode == .manual && (s.zone z).manual.isSome)
    let entry := fun z : Fin 8 =>
      ({ zone := z, frame := (t.zone z).lastBuilt, modeAtBuild := (s.zone z).mode } : QueuedFrame)
    let u := openExchange s
    let placed := openExchange { u with zones := { u.zones with
      queue := u.zones.queue.map (fun q => if builds q.zone then entry q.zone else q) ++
        ((List.finRange 8).filter fun z => builds z && u.zones.queue.all fun q => q.zone != z).map entry } }
    (∀ z : Fin 8,
      let aged := { s.zone z with
        age := if (s.zone z).lastStatus.isSome then min ((s.zone z).age + 1) 255 else (s.zone z).age }
      let after := fun f : SetpointFrame => { aged with
        lastBuilt := f, nextTag := (s.zone z).nextTag + 1, clampedLast := f.marks.any }
      let frame := fun (origin : FrameOrigin) (run : Bool) (dir : FanDirection) (stage : Stage)
          (sp : Option Setpoints) =>
        ({ tag := (s.zone z).nextTag, origin := origin, fanRun := run, direction := dir, stage := stage
           setpoints := sp.map fun x => (clampSetpoints s.zones.envelope x).1
           marks := (sp.map fun x => (clampSetpoints s.zones.envelope x).2).getD noMarks } : SetpointFrame)
      ((s.zone z).mode = .auto → s.sequencer.engaged = false →
        t.zone z = after (frame .idle false .forward .none none)) ∧
      (∀ (r : StepRecord) (w : Int), (s.zone z).mode = .auto → s.sequencer.engaged = true →
        s.sequencer.currentStep = some r → s.sequencer.working = some w →
        t.zone z = after (frame .schedule true s.sequencer.fan r.kind.stage
          (some { dry := roundDiv w 10, wet := max 0 (roundDiv w 10 - r.depression) }))) ∧
      (∀ r, (s.zone z).mode = .manual → (s.zone z).manual = some r →
        t.zone z = after (frame .supervisor r.fanRun r.direction r.stage r.setpoints)) ∧
      ((s.zone z).mode = .manual → (s.zone z).manual = none → t.zone z = aged) ∧
      ((s.zone z).mode = .off → t.zone z = aged) ∧
      ((s.zone z).mode = .auto ∨ ((s.zone z).mode = .manual ∧ (s.zone z).manual ≠ none) →
        (∃ q ∈ t.zones.queue, q.zone = z ∧ q.frame = (t.zone z).lastBuilt) ∨
        (∃ x, t.zones.exchange = some x ∧ x.entry.zone = z ∧ x.entry.frame = (t.zone z).lastBuilt))) ∧
    t.notices = ((List.finRange 8).filter fun z =>
        builds z && (t.zone z).lastBuilt.marks.any && !(s.zone z).clampedLast).foldl
      (fun q z => q.add { kind := .envelopeClamp, subject := z.val, minute := s.uptime
                          value1 := some (t.zone z).lastBuilt.marks.code
                          value2 := some (if (s.zone z).mode = .auto then 1 else 2) }) s.notices ∧
    (QueueSound s.zones → t.zones.queue = placed.zones.queue ∧ t.zones.exchange = placed.zones.exchange ∧
      t.drive = placed.drive) ∧
    (∀ x, s.zones.exchange = some x → t.zones.exchange = some x ∧ t.drive = s.drive) ∧
    t.zones.periodTimer = .running (s.param .drivePeriod) ∧ t.zones.envelope = s.zones.envelope ∧
    t = { s with zones := t.zones, drive := { s.drive with slot := t.drive.slot }, notices := t.notices }

/-- A frame of the Drive Queue is handed over when no exchange is in flight, the Drive Line is RUNNING and the queue is
not empty: the oldest goes to the transmit slot and its exchange is SENDING. Otherwise nothing changes. The frame on
the wire has the seven bytes of section 11.5: tag, flags, stage, dry-bulb and wet-bulb, the last two 0 in a frame
without setpoints. -/
def Obligations.ExchangeOpens : Prop :=
  (∀ (q : QueuedFrame) (rest : List QueuedFrame) (s : State), s.zones.exchange = none → s.zones.queue = q :: rest →
    s.drive.lineState = .running →
    openExchange s = { s with
      zones := { s.zones with queue := rest, exchange := some { entry := q, phase := .sending, timeout := .stopped } }
      drive := { s.drive with slot := .waiting (q.frame.toFrame q.zone) } } ∧
    (q.frame.toFrame q.zone).address = 0x50 + BitVec.ofNat 8 q.zone.val ∧ (q.frame.toFrame q.zone).kind = 0x31 ∧
    let g := q.frame
    let p := (g.toFrame q.zone).payload
    p.length = 7 ∧ byteAt p 0 = g.tag ∧
    (byteAt p 1).toNat = (if g.setpoints = none then 0 else 1) + (if g.fanRun then 2 else 0) +
      (match g.direction with | .forward => 0 | .reverse => 4) +
      (match g.origin with | .idle => 0 | .schedule => 8 | .supervisor => 16) +
      (if g.marks.dry then 32 else 0) + (if g.marks.depression then 64 else 0) + (if g.marks.wet then 128 else 0) ∧
    byteAt p 2 = (match g.stage with
      | .none => 0 | .heatUp => 1 | .dry => 2 | .equalize => 3 | .condition => 4 | .cool => 5) ∧
    (g.setpoints = none → p.drop 3 = [0, 0, 0, 0]) ∧
    (∀ sp, g.setpoints = some sp → HoldsTemp p 3 (some sp.dry) ∧ HoldsTemp p 5 (some sp.wet))) ∧
  (∀ s : State, s.zones.exchange ≠ none ∨ s.zones.queue = [] ∨ s.drive.lineState ≠ .running → openExchange s = s)

/-- DRIVE_ANSWER_TIMEOUT of an exchange in WAITING: the misses of its zone rise, held at 15; at the limit the driver is
SILENT and ZONE_NO_ANSWER is raised with the count, and it is raised again for a SILENT driver; the exchange ends and
the next frame is handed over. A STATUS answer delivered to an exchange in WAITING, and the screens before it: a frame
of another address, or one without an exchange in flight, is ignored, one that is not this exchange's STATUS ends it
with no answer, and an answer is taken with each percentage at most 100. -/
def Obligations.DriveAnswer : Prop :=
  (∀ (x : DriveExchange) (s : State), s.zones.exchange = some x → x.phase = .waiting →
     let z := x.entry.zone
     let m := min ((s.zone z).misses + 1) 15
     let ended := fun t : State => openExchange { t with zones := { t.zones with exchange := none } }
     ((s.zone z).driver ≠ .silent → m < s.param .driveMissLimit →
       exec .driveAnswerTimeout s = .next (ended (s.setZone z { s.zone z with misses := m }))) ∧
     ((s.zone z).driver = .silent ∨ s.param .driveMissLimit ≤ m →
       exec .driveAnswerTimeout s = .next (ended (raiseFault (.zone z) .zoneNoAnswer (some m)
         (s.setZone z { s.zone z with misses := m, driver := .silent }))))) ∧
  ((∀ (f : Frame) (s : State), s.zones.exchange = none → driveDelivered f s = s) ∧
   (∀ (x : DriveExchange) (f : Frame) (s : State), s.zones.exchange = some x →
        let z := x.entry.zone
        (x.phase = .sending → driveDelivered f s = s) ∧
        (x.phase = .waiting → f.address ≠ 0x50 + BitVec.ofNat 8 z.val → driveDelivered f s = s) ∧
        (x.phase = .waiting → f.address = 0x50 + BitVec.ofNat 8 z.val →
          f.kind ≠ 0x32 ∨ f.payload.length ≠ 9 ∨ byteAt f.payload 0 ≠ x.entry.frame.tag →
          exec .driveAnswerTimeout s = .next (driveDelivered f s)) ∧
        (∀ b1 b2 b3 b4 heat vent spray alarms : Byte, x.phase = .waiting →
          f = { address := 0x50 + BitVec.ofNat 8 z.val, kind := 0x32,
                payload := [x.entry.frame.tag, b1, b2, b3, b4, heat, vent, spray, alarms] } →
          let set : Alarms := { overTemp := alarms.getLsbD 0, fanFail := alarms.getLsbD 1, waterLow := alarms.getLsbD 2,
                                localControl := alarms.getLsbD 3 }
          let u := s.setZone z { s.zone z with
            lastStatus := some { dry := (b1 ++ b2).toInt, wet := (b3 ++ b4).toInt, heat := min heat.toNat 100
                                 vent := min vent.toNat 100, spray := min spray.toNat 100, alarms := set }
            age := 0, misses := 0, driver := .answering }
          let v := if alarms.extractLsb' 0 4 = 0 then u
            else raiseFault (.zone z) .zoneAlarm (some (alarms.extractLsb' 0 4).toNat) u
          driveDelivered f s = openExchange { v with zones := { v.zones with exchange := none } })))

/-! ### The minute clock and the schedule -/

/-- The ramp: a working setpoint lies between the basis and the target, is the basis moved by floor(r × m / 6) until
that reaches the target, never moves back as the minutes rise, and with a ramp rate of 0 is the target at once. -/
def Obligations.RampRules : Prop :=
  ∀ (r : StepRecord) (b : Int) (m : Nat),
    let g : Int := 10 * r.target
    (r.rampRate = 0 → rampAt r b m = g) ∧
    (r.rampRate ≠ 0 → b ≤ g → rampAt r b m = min g (b + (r.rampRate * m / 6 : Nat))) ∧
    (r.rampRate ≠ 0 → g ≤ b → rampAt r b m = max g (b - (r.rampRate * m / 6 : Nat))) ∧
    (min b g ≤ rampAt r b m ∧ rampAt r b m ≤ max b g) ∧
    (b ≤ g → rampAt r b m ≤ rampAt r b (m + 1)) ∧ (g ≤ b → rampAt r b (m + 1) ≤ rampAt r b m)

/-- MINUTE_TICK in every schedule state, short of a step's limit: the uptime minute rises, held at 4,194,303; in HELD
the charge minute rises, held at 1,048,575; in RUNNING the step elapsed rises too, the ramp is taken and, where the
step's fan interval falls, the direction changes and the zones are told. That FAN_REVERSAL is the same tick as
MINUTE_TICK is the model's reading of the table's rows (log entry 5). -/
def Obligations.MinuteTick : Prop :=
  ∀ s : State,
    let up := min (s.uptime + 1) 4194303
    let charge := min (s.sequencer.chargeMinute + 1) 1048575
    (s.sequencer.engaged = false → exec .minuteTick s = .next { s with uptime := up }) ∧
    (s.sequencer.state = .held → exec .minuteTick s =
      .next { s with uptime := up, sequencer := { s.sequencer with chargeMinute := charge } }) ∧
    (∀ (r : StepRecord) (b : Int), s.sequencer.state = .running → s.sequencer.currentStep = some r →
      s.sequencer.basis = some b → s.sequencer.elapsed + 1 < r.maximum →
      let q := { s.sequencer with
        chargeMinute := charge, elapsed := s.sequencer.elapsed + 1
        working := some (rampAt r b (s.sequencer.elapsed + 1)) }
      (r.fanInterval = 0 ∨ ¬ r.fanInterval ∣ s.sequencer.elapsed + 1 →
        exec .minuteTick s = .next { s with uptime := up, sequencer := q }) ∧
      (0 < r.fanInterval → r.fanInterval ∣ s.sequencer.elapsed + 1 →
        exec .minuteTick s = .next (tellZones { s with
          uptime := up
          sequencer := { q with fan := match q.fan with | .forward => .reverse | .reverse => .forward } }) ∧
        exec .fanReversal s = exec .minuteTick s))

/-- STEP_LIMIT: the minute tick at which the current step of a RUNNING schedule reaches its maximum duration. A history
entry is appended with the reason TIME_DONE for a time step and TIME_LIMIT for a condition step; the next step is
entered with its ramp basis at the working setpoint, or the schedule ends. That STEP_LIMIT is the same tick as
MINUTE_TICK (log entry 5) and the order of notices and builds (log entry 10) are the model's. -/
def Obligations.StepLimit : Prop :=
  ∀ (s : State) (i : Nat) (r : StepRecord) (w : Int), CausesSound s.sequencer → s.sequencer.state = .running →
    s.sequencer.stepIndex = some i → s.sequencer.stepAt i = some r → s.sequencer.working = some w →
    r.maximum ≤ s.sequencer.elapsed + 1 →
    let charge := min (s.sequencer.chargeMinute + 1) 1048575
    let reason : ExitReason := if r.condition = .time then .timeDone else .timeLimit
    let entry : HistoryEntry :=
      { step := i, entryMinute := s.sequencer.entryMinute, exitMinute := charge, reason := reason,
        cmcAtExit := s.estimator.current.bind (·.chargeCmc) }
    let u := { s with uptime := min (s.uptime + 1) 4194303 }
    exec .minuteTick s = exec .stepLimit s ∧
    (∀ r', i + 1 < s.sequencer.stepCount → s.sequencer.stepAt (i + 1) = some r' →
      exec .stepLimit s = .next (raiseNotice .stepChange (i + 1) (some i) (some reason.code) (tellZones { u with
        sequencer := { s.sequencer with
          chargeMinute := charge, history := s.sequencer.history ++ [entry], stepIndex := some (i + 1), elapsed := 0
          entryMinute := charge, basis := some w, working := some (rampAt r' w 0), streak := 0 }
        estimator := { s.estimator with lagFlags := Vector.replicate 8 false } }))) ∧
    (s.sequencer.stepCount ≤ i + 1 →
      exec .stepLimit s = .next (tellZones (raiseNotice .scheduleState 4 (some 0) none
        (raiseNotice .stepChange 255 (some i) (some reason.code) { u with
          sequencer := { s.sequencer with
            chargeMinute := charge, elapsed := s.sequencer.elapsed + 1, history := s.sequencer.history ++ [entry]
            state := .ended } }))))

/-- An Estimate taken by the Sequencer. On a time step, and outside RUNNING and HELD, it changes nothing; on a
condition step an INSUFFICIENT one raises the streak and at the limit adds STARVED, a SUFFICIENT one clears both, and
in RUNNING past the minimum duration one that meets the condition makes the step exit with the reason CONDITION. The
exit of a step, for any reason: a history entry with the charge CMC of the present Estimate, then the next step entered
from the working setpoint, where entry to a time step removes STARVED, and STEP_CHANGE; or the schedule ended. That the
zones are told twice where the removal changes the state is the model's choice (log entry 11), the order of notices and
builds too (log entry 10), and so is a notice for each stage of an Estimate that removes STARVED and then exits the
step (log entry 29). -/
def Obligations.EstimateTaken : Prop :=
  (∀ (e : Estimate) (s : State),
    let streakTo := fun n : Nat => { s with sequencer := { s.sequencer with streak := n } }
    (s.sequencer.engaged = false → takeEstimate e s = s) ∧
    (∀ r, s.sequencer.currentStep = some r → r.condition = .time → takeEstimate e s = s) ∧
    (∀ r, s.sequencer.engaged = true → s.sequencer.currentStep = some r → r.condition ≠ .time →
      let n := min (s.sequencer.streak + 1) 255
      (e.sufficient = false → e.chargeCmc = none → e.spread = none →
        takeEstimate e s =
          if s.param .starvationLimit ≤ n then addCause .starved (streakTo n) else streakTo n) ∧
      (∀ v t, e.sufficient = true → r.threshold = some t →
        (r.condition = .mcBelow ∧ e.chargeCmc = some v) ∨ (r.condition = .spreadBelow ∧ e.spread = some v) →
        let u := removeCause .starved (streakTo 0)
        takeEstimate e s =
          if u.sequencer.state = .running ∧ r.minimum ≤ s.sequencer.elapsed ∧ v ≤ t then exitStep .condition u
          else u))) ∧
  (∀ (why : ExitReason) (i : Nat) (s : State), s.sequencer.stepIndex = some i →
    let q := s.sequencer
    let code : Nat := match why with | .condition => 0 | .timeDone => 1 | .timeLimit => 2 | .skipped => 3
    let entry : HistoryEntry :=
      { step := i, entryMinute := q.entryMinute, exitMinute := q.chargeMinute, reason := why
        cmcAtExit := s.estimator.current.bind (·.chargeCmc) }
    (∀ (r : StepRecord) (w : Int), i + 1 < q.stepCount → q.stepAt (i + 1) = some r → q.working = some w →
      let frees := r.condition == .time && q.causes.starved
      let causes := if frees then { q.causes with starved := false } else q.causes
      let state := if frees && causes.isEmpty then .running else q.state
      let entered := { s with
        sequencer := { q with
          state := state, causes := causes, history := q.history ++ [entry], stepIndex := some (i + 1), elapsed := 0
          entryMinute := q.chargeMinute, basis := some w, working := some (rampAt r w 0), streak := 0 }
        estimator := { s.estimator with lagFlags := Vector.replicate 8 false } }
      let told := raiseNotice .stepChange (i + 1) (some i) (some code)
        (tellZones (if state = q.state then entered else tellZones entered))
      exitStep why s = if frees then raiseNotice .scheduleState state.code (some causes.code) none told else told) ∧
    (q.stepCount ≤ i + 1 →
      exitStep why s = tellZones (raiseNotice .scheduleState 4 (some 0) none
        (raiseNotice .stepChange 255 (some i) (some code) { s with sequencer := { q with
          state := .ended, history := q.history ++ [entry]
          causes := { manual := false, starved := false, fieldFault := false, driveFault := false } } }))))

/-! ### Requests on the part and its lines -/

/-- IDENTIFY and READ_LINE_STATUS: without payload they are answered and change nothing; with one they are refused
BAD_LENGTH. The codes of line states and discard reasons are those of section 11.3. SET_ADDRESS_SLOT: the three fields
of slot 1 replaced at once, or the request refused. -/
def Obligations.PartRequests : Prop :=
  ([LineState.halted, .running, .fault .halted, .fault .running].map (·.code) = [0, 1, 2, 2] ∧
   [DiscardReason.none, .charError, .truncated, .badLength, .badCheck, .full].map (·.code) = [0, 1, 2, 3, 4, 5] ∧
   (∀ (f : KilnFrame) (rest : List KilnFrame) (s : State), Asked s 0x40 f rest →
     (f.payload = [] → exec .identify s = .next (Answered s f rest
       [0x06, 0x24, 0x01, 192, 16, 8, 8, 24, 16, 32, 0x10 + BitVec.ofNat 8 s.straps.addr.toNat,
        0x80 + BitVec.ofNat 8 (16 * s.straps.addr.toNat)] s)) ∧
     (f.payload ≠ [] → exec .identify s = .next (Refused s f rest 2))) ∧
   (∀ (f : KilnFrame) (rest : List KilnFrame) (s : State), Asked s 0x41 f rest →
     (f.payload = [] → exec .readLineStatus s = .next (Answered s f rest
       [BitVec.ofNat 8 s.field.lineState.code, BitVec.ofNat 8 s.drive.lineState.code,
        BitVec.ofNat 8 s.field.lastDiscard.code, BitVec.ofNat 8 s.drive.lastDiscard.code,
        BitVec.ofNat 8 s.kiln.lastDiscard.code, BitVec.ofNat 8 s.field.rate.toNat, BitVec.ofNat 8 s.drive.rate.toNat,
        BitVec.ofNat 8 s.kiln.rate.toNat] s)) ∧
     (f.payload ≠ [] → exec .readLineStatus s = .next (Refused s f rest 2)))) ∧
  (∀ (f : KilnFrame) (rest : List KilnFrame) (s : State), Asked s 0x44 f rest →
     (f.payload.length ≠ 3 → exec .setAddressSlot s = .next (Refused s f rest 2)) ∧
     (∀ a m v : Byte, f.payload = [a, m, v] →
       (1 < v.toNat → exec .setAddressSlot s = .next (Refused s f rest 3)) ∧
       (v = 0 ∨ v = 1 →
         let t := { s with handler := { s.handler with slot1 := { address := a, mask := m, valid := v == 1 } } }
         exec .setAddressSlot s = .next (Answered t f rest [a, m, v] t))))

/-- SET_CONFIG: the value sent, brought into the parameter's limits, replaces the parameter; CLAMPED when they differ.
The limits of the 23 parameters stand in the order of their ids. READ_CONFIG: the id, the present value, both limits
and the default; nothing changes. -/
def Obligations.ConfigRequests : Prop :=
  (∀ (f : KilnFrame) (rest : List KilnFrame) (s : State), Asked s 0x42 f rest →
     let lows : Vector Nat 23 := #v[10, 5, 0, 1, 1, 1, 1, 5, 1, 0, 1, 1, 0, 1, 1, 10, 5, 5, 1, 0, 1, 0, 0]
     let highs : Vector Nat 23 :=
       #v[600, 100, 3, 15, 15, 8, 15, 300, 16, 8, 32, 32, 4, 16, 16, 300, 60, 100, 15, 3, 16, 1, 1]
     (f.payload.length ≠ 3 → exec .setConfig s = .next (Refused s f rest 2)) ∧
     (∀ id hi lo : Byte, f.payload = [id, hi, lo] →
       (id.toNat = 0 ∨ 23 < id.toNat → exec .setConfig s = .next (Refused s f rest 3)) ∧
       (∀ i : Fin 23, id.toNat = i.val + 1 →
         let sent := hi.toNat * 256 + lo.toNat
         let taken := if sent < lows[i] then lows[i] else if highs[i] < sent then highs[i] else sent
         exec .setConfig s = .next (AnsweredWith (taken != sent) s f rest
           [id, BitVec.ofNat 8 (taken / 256), BitVec.ofNat 8 taken] { s with params := s.params.set i taken })))) ∧
  (∀ (f : KilnFrame) (rest : List KilnFrame) (s : State), Asked s 0x43 f rest →
     let lows : Vector Nat 23 := #v[10, 5, 0, 1, 1, 1, 1, 5, 1, 0, 1, 1, 0, 1, 1, 10, 5, 5, 1, 0, 1, 0, 0]
     let highs : Vector Nat 23 :=
       #v[600, 100, 3, 15, 15, 8, 15, 300, 16, 8, 32, 32, 4, 16, 16, 300, 60, 100, 15, 3, 16, 1, 1]
     let defaults : Vector Nat 23 :=
       #v[60, 20, 1, 3, 4, 3, 4, 30, 4, 1, 8, 4, 0, 2, 3, 40, 10, 20, 3, 2, 10, 1, 0]
     (f.payload.length ≠ 1 → exec .readConfig s = .next (Refused s f rest 2)) ∧
     (∀ id : Byte, f.payload = [id] →
       (id.toNat = 0 ∨ 23 < id.toNat → exec .readConfig s = .next (Refused s f rest 3)) ∧
       (∀ i : Fin 23, id.toNat = i.val + 1 → ∃ d : List Byte,
         exec .readConfig s = .next (Answered s f rest d s) ∧ d.length = 9 ∧ byteAt d 0 = id ∧
         Holds2 d 1 (some s.params[i]) ∧ Holds2 d 3 (some lows[i]) ∧ Holds2 d 5 (some highs[i]) ∧
         Holds2 d 7 (some defaults[i]))))

/-- LINE_RESTART: the unit starts afresh in its return state, the owner abandons its exchange (a RUNNING Field Line
starts a cycle, the Drive Line hands over its next frame), and the cause of a line that was in FAULT is removed, after
the owner's part (log entry 9). The wait for marking after a restart is the model's (log entry 14). A drive exchange
abandoned, by a restart or a FAULT: a frame not sent whole is put back at the front of the queue when its zone has none
pending and the mode it was built in, and discarded otherwise; a frame sent whole is not put back, and no miss is
counted. A frame cut while it was being sent leaves its slot in the act (log entry 19). -/
def Obligations.LineRestart : Prop :=
  (∀ (f : KilnFrame) (rest : List KilnFrame) (s : State), Asked s 0x54 f rest →
     (f.payload.length ≠ 1 → exec .lineRestart s = .next (Refused s f rest 2)) ∧
     (∀ n : Byte, f.payload = [n] → 1 < n.toNat → exec .lineRestart s = .next (Refused s f rest 3)) ∧
     (∀ l : PairLine, f.payload = [if l = .field then 0 else 1] →
       let u := s.unit l
       let wait := u.awaitMarking || (u.slot.isSending || u.lineState.isFault) && u.pairSpacing
       let restored : LineState := match u.lineState with
         | .fault .halted => .halted
         | .fault .running => .running
         | x => x
       let limit := 2 ^ s.param .stuckUnit * s.param .stuckCount
       let s1 := (Taken s rest).setUnit l { u with
         lineState := restored, slot := .empty, assembler := .hunt, awaitMarking := wait
         spell := if u.pairSpacing then .running limit else .stopped
         idle := if u.pairSpacing then .stopped else .running 24 }
       let cleared := { s1 with
         poller := { s1.poller with staging := none, phase := .idle, cycleTimer := .stopped, cycleDue := false } }
       let owner := match l with
         | .field => if restored = .running then startCycle cleared else cleared
         | .drive => openExchange (abandonExchange s1)
       exec .lineRestart s = .next (Answered s f rest [BitVec.ofNat 8 restored.code]
         (if u.lineState.isFault then
           removeCause (if l = .field then .fieldFault else .driveFault) owner
          else owner)))) ∧
  (∀ s : State, s.zones.exchange = none → abandonExchange s = s) ∧
  (∀ (x : DriveExchange) (s : State), s.zones.exchange = some x →
     let back := x.phase = .sending ∧ (∀ q ∈ s.zones.queue, q.zone ≠ x.entry.zone) ∧
       (s.zone x.entry.zone).mode = x.entry.modeAtBuild
     (back → abandonExchange s = { s with zones := { s.zones with
       queue := x.entry :: s.zones.queue, exchange := none } }) ∧
     (¬ back → abandonExchange s = { s with zones := { s.zones with exchange := none } }))

/-- UNKNOWN_REQUEST: a frame of slot 0 or of a group whose kind is outside the catalogue is refused BAD_KIND, and no
request is taken while the reply place is full. That a request row whose frame cannot be taken changes nothing is the
model's choice (log entry 1). -/
def Obligations.UnknownKindRefused : Prop :=
  (∀ (f : KilnFrame) (rest : List KilnFrame) (s : State), AtFront s f rest → f.cls.isWindow = false →
    (∀ i : Instr, kindOfRequest i ≠ some f.kind) → exec .unknownRequest s = .next (Refused s f rest 1)) ∧
  (∀ (i : Instr) (r : Reply) (s : State), s.handler.replyPlace = some r →
    (kindOfRequest i).isSome = true ∨ i = .zoneSet ∨ i = .unknownRequest → exec i s = .next s)

/-! ### Requests on curves and probes -/

/-- LOAD_CURVE: the length against the count it carries, the ranges, and BUSY while the schedule is engaged and a
mapped probe names the profile; otherwise the profile is replaced whole. READ_CURVE: the profile's number, flag,
coefficient, count, users and points; nothing changes. -/
def Obligations.CurveRequests : Prop :=
  (∀ (f : KilnFrame) (rest : List KilnFrame) (s : State), Asked s 0x48 f rest →
     let p := f.payload
     let n := (byteAt p 2).toNat
     let code := fun i : Nat => u16At p (3 + 4 * i)
     let mc := fun i : Nat => u16At p (5 + 4 * i)
     let sound := 2 ≤ n ∧ n ≤ 16 ∧ (∀ i < n, code i ≤ 4095 ∧ mc i ≤ 1200) ∧
       (∀ i, i + 1 < n → code i < code (i + 1) ∧ mc (i + 1) < mc i)
     (p.length < 3 ∨ p.length ≠ 3 + 4 * n → exec .loadCurve s = .next (Refused s f rest 2)) ∧
     (3 ≤ p.length → p.length = 3 + 4 * n → 7 < (byteAt p 0).toNat ∨ ¬ sound →
       exec .loadCurve s = .next (Refused s f rest 3)) ∧
     (∀ k : Fin 8, 3 ≤ p.length → p.length = 3 + 4 * n → (byteAt p 0).toNat = k.val → sound →
       let names := fun i : Fin 192 => (s.probe i).isMapped && (s.probe i).mapping.any fun m => m.profile == k
       let users := (List.finRange 192).countP names
       (s.sequencer.engaged = true → (∃ i, names i = true) → exec .loadCurve s = .next (Refused s f rest 4)) ∧
       (s.sequencer.engaged = false ∨ (∀ i, names i = false) →
         exec .loadCurve s = .next (Answered s f rest [byteAt p 0, byteAt p 2, BitVec.ofNat 8 users] { s with
           curves := s.curves.set k { loaded := true, kt := (byteAt p 1).toNat
                                      points := (List.range n).map fun i => { code := code i, mc := mc i } } })))) ∧
  (∀ (f : KilnFrame) (rest : List KilnFrame) (s : State), Asked s 0x49 f rest →
     (f.payload.length ≠ 1 → exec .readCurve s = .next (Refused s f rest 2)) ∧
     (∀ n : Byte, f.payload = [n] →
       (7 < n.toNat → exec .readCurve s = .next (Refused s f rest 3)) ∧
       (∀ k : Fin 8, n.toNat = k.val →
         let c := s.curves[k]
         let names := fun i : Fin 192 => (s.probe i).isMapped && (s.probe i).mapping.any fun m => m.profile == k
         ∃ d : List Byte, exec .readCurve s = .next (Answered s f rest d s) ∧ d.length = 4 + 4 * c.points.length ∧
           (byteAt d 0).toNat = k.val + (if c.loaded then 128 else 0) ∧ Holds1 d 1 (some c.kt) ∧
           Holds1 d 2 (some c.points.length) ∧ Holds1 d 3 (some ((List.finRange 192).countP names)) ∧
           (∀ (i : Nat) (q : CurvePoint), c.points[i]? = some q →
             Holds2 d (4 + 4 * i) (some q.code) ∧ Holds2 d (6 + 4 * i) (some q.mc)))))

/-- MAP_PROBE: RANGE, BUSY and CONFLICT in this order; otherwise the entry is SETTLING with its mapping and every other
field as at power-up, the node's mask gains the channel and a VACANT node is ONLINE afresh. -/
def Obligations.MapProbe : Prop :=
  ∀ (f : KilnFrame) (rest : List KilnFrame) (s : State), Asked s 0x4C f rest →
    (f.payload.length ≠ 5 → exec .mapProbe s = .next (Refused s f rest 2)) ∧
    (∀ b n c z k : Byte, f.payload = [b, n, c, z, k] →
      (191 < b.toNat ∨ 15 < n.toNat ∨ 15 < c.toNat ∨ 7 < z.toNat ∨ 7 < k.toNat ∨
          (∃ j : Fin 8, k.toNat = j.val ∧ s.curves[j].loaded = false) →
        exec .mapProbe s = .next (Refused s f rest 3)) ∧
      (∀ (i : Fin 192) (m : Mapping), b.toNat = i.val → n.toNat = m.node.val → c.toNat = m.channel.val →
        z.toNat = m.zone.val → k.toNat = m.profile.val → s.curves[m.profile].loaded = true →
        let taken := ∃ (j : Fin 192) (o : Mapping), (s.probe j).isMapped = true ∧ (s.probe j).mapping = some o ∧
          o.node = m.node ∧ o.channel = m.channel
        let mask := (s.node m.node).mask ||| (1#16 <<< m.channel.val)
        let node : NodeEntry := if (s.node m.node).state = .vacant then
            { state := .online, mask := mask, misses := 0, marginal := 0, lastTemp := none, lastScanMinute := none,
              lastOutcome := .none }
          else { s.node m.node with mask := mask }
        ((s.probe i).isMapped = true → exec .mapProbe s = .next (Refused s f rest 4)) ∧
        ((s.probe i).isMapped = false → taken → exec .mapProbe s = .next (Refused s f rest 5)) ∧
        ((s.probe i).isMapped = false → ¬ taken →
          exec .mapProbe s = .next (Answered s f rest [b, 1, BitVec.ofNat 8 node.state.code] { s with
            probes := s.probes.set i
              { state := .settling, mapping := some m, manual := false, reading := none, conversion := none
                filtered := none, held := none, progress := 0, streak := 0, lastReject := none, lastAccepted := none }
            poller := { s.poller with nodes := s.poller.nodes.set m.node node } }))))

/-- UNMAP_PROBES: every mapped entry of the run is as at power-up, its channel has left its node's mask, a node without
a channel left is VACANT with its fields cleared, and a visit in flight to such a node is marked. -/
def Obligations.UnmapProbes : Prop :=
  ∀ (f : KilnFrame) (rest : List KilnFrame) (s : State), Asked s 0x4D f rest →
    (f.payload.length ≠ 2 → exec .unmapProbes s = .next (Refused s f rest 2)) ∧
    (∀ p e : Byte, f.payload = [p, e] →
      (191 < p.toNat ∨ 7 < e.toNat → exec .unmapProbes s = .next (Refused s f rest 3)) ∧
      (p.toNat ≤ 191 → e.toNat ≤ 7 →
        let start := p.toNat / 2 ^ e.toNat * 2 ^ e.toNat
        let hit := fun i : Fin 192 => decide (start ≤ i.val) && decide (i.val < start + 2 ^ e.toNat) &&
          (s.probe i).isMapped
        let frees := fun (n : Fin 16) (c : Nat) => ∃ (i : Fin 192) (m : Mapping), hit i = true ∧
          (s.probe i).mapping = some m ∧ m.node = n ∧ m.channel.val = c
        ∃ (probes : Vector ProbeEntry 192) (nodes : Vector NodeEntry 16) (staging : Option Staging),
          exec .unmapProbes s = .next (Answered s f rest [BitVec.ofNat 8 ((List.finRange 192).countP hit)] { s with
            probes := probes, poller := { s.poller with nodes := nodes, staging := staging } }) ∧
          (∀ i : Fin 192, probes[i] = if hit i then
              { state := .unmapped, mapping := none, manual := false, reading := none, conversion := none
                filtered := none, held := none, progress := 0, streak := 0, lastReject := none, lastAccepted := none }
            else s.probe i) ∧
          (∀ n : Fin 16, (∀ c, ¬ frees n c) → nodes[n] = s.node n) ∧
          (∀ n : Fin 16, (∃ c, frees n c) →
            (∀ c < 16, (s.node n).mask.getLsbD c = true → frees n c) → nodes[n] =
              { state := .vacant, mask := 0, misses := 0, marginal := 0, lastTemp := none, lastScanMinute := none
                lastOutcome := .none }) ∧
          (∀ n : Fin 16, (∃ c, frees n c) → (∃ c < 16, (s.node n).mask.getLsbD c = true ∧ ¬ frees n c) →
            ∃ mask : BitVec 16, nodes[n] = { s.node n with mask := mask } ∧
              ∀ c < 16, mask.getLsbD c = true ↔ (s.node n).mask.getLsbD c = true ∧ ¬ frees n c) ∧
          (s.poller.staging = none → staging = none) ∧
          (∀ st, s.poller.staging = some st → ∃ lost : Bool, staging = some { st with lost := lost } ∧
            (lost = true ↔ st.lost = true ∨ ((∃ c, frees st.node c) ∧ nodes[st.node].state = .vacant)))))

/-- EXCLUDE_PROBES and INCLUDE_PROBES: the entries of the run in a suitable state are changed and counted, all others
stay. -/
def Obligations.ExcludeInclude : Prop :=
  ∀ (f : KilnFrame) (rest : List KilnFrame) (s : State),
    let inRun := fun (p e : Byte) (i : Fin 192) => decide (p.toNat / 2 ^ e.toNat * 2 ^ e.toNat ≤ i.val) &&
      decide (i.val < p.toNat / 2 ^ e.toNat * 2 ^ e.toNat + 2 ^ e.toNat)
    let out := fun (p e : Byte) (i : Fin 192) => inRun p e i && (s.probe i).isMapped &&
      ((s.probe i).state != .excluded || !(s.probe i).manual)
    let back := fun (p e : Byte) (i : Fin 192) => inRun p e i && (s.probe i).state == .excluded
    (Asked s 0x4E f rest →
      (f.payload.length ≠ 2 → exec .excludeProbes s = .next (Refused s f rest 2)) ∧
      (∀ p e : Byte, f.payload = [p, e] →
        (191 < p.toNat ∨ 7 < e.toNat → exec .excludeProbes s = .next (Refused s f rest 3)) ∧
        (p.toNat ≤ 191 → e.toNat ≤ 7 → ∃ probes : Vector ProbeEntry 192,
          exec .excludeProbes s = .next (Answered s f rest [BitVec.ofNat 8 ((List.finRange 192).countP (out p e))]
            { s with probes := probes }) ∧
          ∀ i : Fin 192, probes[i] = if out p e i then { s.probe i with state := .excluded, manual := true }
            else s.probe i))) ∧
    (Asked s 0x4F f rest →
      (f.payload.length ≠ 2 → exec .includeProbes s = .next (Refused s f rest 2)) ∧
      (∀ p e : Byte, f.payload = [p, e] →
        (191 < p.toNat ∨ 7 < e.toNat → exec .includeProbes s = .next (Refused s f rest 3)) ∧
        (p.toNat ≤ 191 → e.toNat ≤ 7 → ∃ probes : Vector ProbeEntry 192,
          exec .includeProbes s = .next (Answered s f rest [BitVec.ofNat 8 ((List.finRange 192).countP (back p e))]
            { s with probes := probes }) ∧
          ∀ i : Fin 192, probes[i] = if back p e i then
              { s.probe i with
                state := .settling, manual := false, filtered := none, held := none, progress := 0, streak := 0 }
            else s.probe i)))

/-- READ_PROBE: every field of the entry at its offset, absent fields as all ones; nothing changes. The codes of probe
states, channel statuses, range flags, temperature sources and rejection reasons are those of section 11.3. READ_NODE:
the fields of the node and of the Poller; nothing changes. The codes of node states, scan outcomes and Poller phases
are those of section 11.3. -/
def Obligations.ReadProbeAndNode : Prop :=
  ([ProbeState.unmapped, .settling, .active, .suspect, .stale, .excluded].map (·.code) = [0, 1, 2, 3, 4, 5] ∧
   [ChannelStatus.valid, .openCircuit, .short, .guarded].map (·.code) = [0, 1, 2, 3] ∧
   [RangeFlag.none, .wetEnd, .dryEnd].map (·.code) = [0, 1, 2] ∧
   [TempSource.node, .zoneMeasured, .setpoint, .reference].map (·.code) = [0, 1, 2, 3] ∧
   [RejectReason.openCircuit, .short, .guarded, .jump].map (·.code) = [1, 2, 3, 4] ∧
   ∀ (f : KilnFrame) (rest : List KilnFrame) (s : State), Asked s 0x50 f rest →
     (f.payload.length ≠ 1 → exec .readProbe s = .next (Refused s f rest 2)) ∧
     (∀ n : Byte, f.payload = [n] →
       (191 < n.toNat → exec .readProbe s = .next (Refused s f rest 3)) ∧
       (∀ i : Fin 192, n.toNat = i.val →
         let e := s.probe i
         ∃ d : List Byte, exec .readProbe s = .next (Answered s f rest d s) ∧ d.length = 24 ∧ byteAt d 0 = n ∧
           (byteAt d 1).toNat = e.state.code + (if e.manual then 128 else 0) ∧
           Holds1 d 2 (e.mapping.map (·.node.val)) ∧ Holds1 d 3 (e.mapping.map (·.channel.val)) ∧
           Holds1 d 4 (e.mapping.map (·.zone.val)) ∧ Holds1 d 5 (e.mapping.map (·.profile.val)) ∧
           Holds2 d 6 (e.reading.map (·.code)) ∧ Holds1 d 8 (e.reading.map (·.status.code)) ∧
           Holds2 d 9 (e.conversion.map (·.corrected)) ∧ Holds2 d 11 (e.conversion.map (·.mc)) ∧
           (e.conversion = none → byteAt d 13 = 0) ∧
           (∀ c, e.conversion = some c → (byteAt d 13).toNat = c.flag.code + 16 * c.source.code) ∧
           Holds2 d 14 e.filtered ∧ Holds2 d 16 e.held ∧ Holds1 d 18 (some e.progress) ∧ Holds1 d 19 (some e.streak) ∧
           Holds1 d 20 (e.lastReject.map (·.code)) ∧ Holds3 d 21 e.lastAccepted))) ∧
  ([NodeState.vacant, .online, .absent].map (·.code) = [0, 1, 2] ∧
   [ScanOutcome.none, .committed, .noAnswer, .corrupt, .outOfOrder, .incomplete].map (·.code) = [0, 1, 2, 3, 4, 5] ∧
   [PollPhase.idle, .cycling, .draining].map (·.code) = [0, 1, 2] ∧
   ∀ (f : KilnFrame) (rest : List KilnFrame) (s : State), Asked s 0x51 f rest →
     (f.payload.length ≠ 1 → exec .readNode s = .next (Refused s f rest 2)) ∧
     (∀ b : Byte, f.payload = [b] →
       (15 < b.toNat → exec .readNode s = .next (Refused s f rest 3)) ∧
       (∀ n : Fin 16, b.toNat = n.val →
         let e := s.node n
         ∃ d : List Byte, exec .readNode s = .next (Answered s f rest d s) ∧ d.length = 18 ∧ byteAt d 0 = b ∧
           (byteAt d 1).toNat = e.state.code ∧ byteAt d 2 ++ byteAt d 3 = e.mask ∧ Holds1 d 4 (some e.misses) ∧
           Holds1 d 5 (some e.marginal) ∧ HoldsTemp d 6 (e.lastTemp.map (·.value)) ∧
           Holds1 d 8 (e.lastTemp.map fun t => if t.fault then 1 else 0) ∧ Holds3 d 9 e.lastScanMinute ∧
           (byteAt d 12).toNat = e.lastOutcome.code ∧ (byteAt d 13).toNat = s.poller.phase.code ∧
           Holds1 d 14 (some (if s.poller.currentCycle = none then 0 else 1)) ∧
           Holds2 d 15 (s.poller.currentCycle.map (·.toNat)) ∧
           Holds1 d 17 (some (if (∃ st, s.poller.staging = some st ∧ st.node = n) then 1 else 0)))))

/-! ### Requests on polling and the Estimate -/

/-- FIELD_START and FIELD_HALT by the Field Line state and the Poller's phase. -/
def Obligations.FieldStartHalt : Prop :=
  ∀ (f : KilnFrame) (rest : List KilnFrame) (s : State),
    let running := { Taken s rest with field := { s.field with lineState := .running } }
    let halted := fun phase : PollPhase => { s with
      field := { s.field with lineState := .halted }
      poller := { s.poller with phase := phase, cycleTimer := .stopped, cycleDue := false } }
    (Asked s 0x52 f rest →
      (f.payload ≠ [] → exec .fieldStart s = .next (Refused s f rest 2)) ∧
      (f.payload = [] → s.field.lineState = .halted → s.poller.phase = .idle →
        exec .fieldStart s = .next (Answered s f rest [1] (startCycle running))) ∧
      (f.payload = [] → s.field.lineState = .halted → s.poller.phase = .draining →
        exec .fieldStart s = .next (Answered s f rest [1] { running with
          poller := { s.poller with cycleDue := true } })) ∧
      (f.payload = [] → s.field.lineState = .running → exec .fieldStart s = .next (Answered s f rest [1] s)) ∧
      (∀ back, f.payload = [] → s.field.lineState = .fault back → exec .fieldStart s = .next (Refused s f rest 4))) ∧
    (Asked s 0x53 f rest →
      (f.payload ≠ [] → exec .fieldHalt s = .next (Refused s f rest 2)) ∧
      (f.payload = [] → s.sequencer.engaged = true → exec .fieldHalt s = .next (Refused s f rest 4)) ∧
      (f.payload = [] → s.sequencer.engaged = false →
        (s.field.lineState = .running → s.poller.phase = .idle →
          exec .fieldHalt s = .next (Answered s f rest [0] (halted .idle))) ∧
        (s.field.lineState = .running → s.poller.phase = .draining →
          exec .fieldHalt s = .next (Answered s f rest [0] (halted .draining))) ∧
        (s.field.lineState = .running → s.poller.phase = .cycling → s.poller.staging ≠ none →
          exec .fieldHalt s = .next (Answered s f rest [0] (halted .draining))) ∧
        (s.field.lineState = .running → s.poller.phase = .cycling → s.poller.staging = none →
          exec .fieldHalt s = .next (Answered s f rest [0] (halted .idle))) ∧
        (s.field.lineState = .halted → exec .fieldHalt s = .next (Answered s f rest [0] s)) ∧
        (∀ back, s.field.lineState = .fault back → exec .fieldHalt s = .next (Answered s f rest [2] { s with
          field := { s.field with lineState := .fault .halted } }))))

/-- READ_ESTIMATE: every field of the Estimate at its offset with the lag flags, or status NONE with every figure
absent; nothing changes. READ_RANKING: up to eight entries of the ranking from the first rank asked for; nothing
changes. -/
def Obligations.EstimateReadings : Prop :=
  (∀ (f : KilnFrame) (rest : List KilnFrame) (s : State), Asked s 0x58 f rest →
     (f.payload ≠ [] → exec .readEstimate s = .next (Refused s f rest 2)) ∧
     (f.payload = [] →
       let e := s.estimator.current
       ∃ d : List Byte, exec .readEstimate s = .next (Answered s f rest d s) ∧ d.length = 48 ∧
         (e = none → byteAt d 0 = 0) ∧ (∀ x, e = some x → byteAt d 0 = if x.sufficient then 1 else 2) ∧
         Holds2 d 1 (e.map (·.sequence.toNat)) ∧ Holds2 d 3 (e.map (·.cycle.toNat)) ∧ Holds3 d 5 (e.map (·.uptime)) ∧
         Holds3 d 8 (e.bind (·.chargeMinute)) ∧ Holds1 d 11 (e.map (·.n)) ∧ Holds1 d 12 (e.map (·.heldCount)) ∧
         Holds2 d 13 (e.bind (·.chargeCmc)) ∧ Holds2 d 15 (e.bind (·.spread)) ∧ Holds2 d 17 (e.bind (·.wettest)) ∧
         Holds2 d 19 (e.bind (·.driest)) ∧ Holds2 d 21 (e.bind (·.mean)) ∧
         (∀ z : Fin 8, Holds1 d (23 + z.val) (e.map (·.zoneCount[z])) ∧
           Holds2 d (31 + 2 * z.val) (e.bind (·.zoneCmc[z])) ∧
           (byteAt d 47).getLsbD z.val = s.estimator.lagFlags[z]))) ∧
  (∀ (f : KilnFrame) (rest : List KilnFrame) (s : State), Asked s 0x59 f rest →
     (f.payload.length ≠ 1 → exec .readRanking s = .next (Refused s f rest 2)) ∧
     (∀ r : Byte, f.payload = [r] →
       (191 < r.toNat → exec .readRanking s = .next (Refused s f rest 3)) ∧
       (r.toNat ≤ 191 → s.estimator.current = none →
         exec .readRanking s = .next (Answered s f rest [0, 0xFF, 0xFF, 0, r] s)) ∧
       (∀ e, r.toNat ≤ 191 → s.estimator.current = some e → ∃ d : List Byte,
         exec .readRanking s = .next (Answered s f rest d s) ∧
         d.length = 5 + 5 * min 8 (e.ranking.length - r.toNat) ∧ byteAt d 0 = 1 ∧
         byteAt d 1 ++ byteAt d 2 = e.sequence ∧ Holds1 d 3 (some e.n) ∧ byteAt d 4 = r ∧
         (∀ (i : Nat) (x : RankEntry), i < 8 → e.ranking[r.toNat + i]? = some x →
           (byteAt d (5 + 5 * i)).toNat = x.probe.val ∧ Holds2 d (6 + 5 * i) (some x.mc) ∧
           (byteAt d (8 + 5 * i)).toNat = x.zone.val ∧ byteAt d (9 + 5 * i) = if x.held then 1 else 0))))

/-! ### Requests on the schedule -/

/-- LOAD_STEP and SET_STEP_COUNT: the checks of length, range and state, a record replaced whole, and a count that
makes an EMPTY schedule LOADED with a notice. -/
def Obligations.StepTable : Prop :=
  ∀ (f : KilnFrame) (rest : List KilnFrame) (s : State),
    let p := f.payload
    let two := fun i : Nat => (byteAt p i).toNat * 256 + (byteAt p (i + 1)).toNat
    let kind := (byteAt p 1).toNat
    let cond := (byteAt p 6).toNat
    let sound := (1 ≤ kind ∧ kind ≤ 5) ∧ (cond = 0 ∨ (cond = 1 ∧ kind = 2) ∨ (cond = 2 ∧ kind = 3)) ∧
      (200 ≤ two 2 ∧ two 2 ≤ 1100) ∧ two 4 ≤ 400 ∧ two 13 ≤ 600 ∧ two 15 ≤ 1440 ∧ 1 ≤ two 11 ∧ two 9 ≤ two 11 ∧
      (cond = 0 → two 9 = 0) ∧ (cond ≠ 0 → two 7 ≤ 1200)
    (Asked s 0x5C f rest →
      (p.length ≠ 17 → exec .loadStep s = .next (Refused s f rest 2)) ∧
      (p.length = 17 → 23 < (byteAt p 0).toNat ∨ ¬ sound → exec .loadStep s = .next (Refused s f rest 3)) ∧
      (∀ i : Fin 24, p.length = 17 → (byteAt p 0).toNat = i.val → sound →
        (s.sequencer.engaged = true → (∃ k, s.sequencer.stepIndex = some k ∧ i.val ≤ k) →
          exec .loadStep s = .next (Refused s f rest 4)) ∧
        (s.sequencer.engaged = false ∨ (∀ k, s.sequencer.stepIndex = some k → k < i.val) →
          ∃ r : StepRecord, r.kind.code = kind ∧ r.target = two 2 ∧ r.depression = two 4 ∧ r.condition.code = cond ∧
            r.threshold = (if cond = 0 then none else some (two 7)) ∧ r.minimum = two 9 ∧ r.maximum = two 11 ∧
            r.rampRate = two 13 ∧ r.fanInterval = two 15 ∧
            exec .loadStep s = .next (Answered s f rest [byteAt p 0, BitVec.ofNat 8 s.sequencer.stepCount]
              { s with sequencer := { s.sequencer with steps := s.sequencer.steps.set i (some r) } })))) ∧
    (Asked s 0x5E f rest →
      (p.length ≠ 1 → exec .setStepCount s = .next (Refused s f rest 2)) ∧
      (∀ n : Byte, p = [n] →
        let counted := { s.sequencer with stepCount := n.toNat }
        (n.toNat = 0 ∨ 24 < n.toNat ∨ (∃ i < n.toNat, s.sequencer.stepAt i = none) ∨
            (s.sequencer.engaged = true ∧ ∃ k, s.sequencer.stepIndex = some k ∧ n.toNat ≤ k) →
          exec .setStepCount s = .next (Refused s f rest 3)) ∧
        (1 ≤ n.toNat → n.toNat ≤ 24 → (∀ i < n.toNat, s.sequencer.stepAt i ≠ none) →
            (s.sequencer.engaged = true → ∀ k, s.sequencer.stepIndex = some k → k < n.toNat) →
          (s.sequencer.state = .empty → exec .setStepCount s = .next (Answered s f rest [n, 1]
            (raiseNotice .scheduleState 1 (some s.sequencer.causes.code) none
              { s with sequencer := { counted with state := .loaded } }))) ∧
          (s.sequencer.state ≠ .empty → exec .setStepCount s =
            .next (Answered s f rest [n, BitVec.ofNat 8 s.sequencer.state.code] { s with sequencer := counted })))))

/-- READ_STEP, READ_HISTORY and READ_SCHEDULE: every field at its offset, absent fields as all ones or 0x8000; nothing
changes. The published dry-bulb is the working setpoint in rounded tenths and the published wet-bulb that less the
step's depression, not below 0, in RUNNING and HELD; in every other state both are absent. The codes of step kinds,
conditions, schedule states, hold causes, exit reasons and fan directions are those of section 11.3. How absent fields
are filled, the target and setpoints among them, is read from R167 (log entry 21), and the order of the fields of
READ_STEP from R99 (log entry 22). -/
def Obligations.ScheduleReadings : Prop :=
  [StepKind.heatUp, .dry, .equalize, .condition, .cool].map (·.code) = [1, 2, 3, 4, 5] ∧
  [StepCondition.time, .mcBelow, .spreadBelow].map (·.code) = [0, 1, 2] ∧
  [ScheduleState.empty, .loaded, .running, .held, .ended, .aborted].map (·.code) = [0, 1, 2, 3, 4, 5] ∧
  (∀ c : Causes, c.code = (if c.manual then 1 else 0) + (if c.starved then 2 else 0) + (if c.fieldFault then 4 else 0) +
    (if c.driveFault then 8 else 0)) ∧
  [ExitReason.condition, .timeDone, .timeLimit, .skipped].map (·.code) = [0, 1, 2, 3] ∧
  [FanDirection.forward, .reverse].map (·.code) = [0, 1] ∧
  ∀ (f : KilnFrame) (rest : List KilnFrame) (s : State),
    (Asked s 0x5D f rest →
      (f.payload.length ≠ 1 → exec .readStep s = .next (Refused s f rest 2)) ∧
      (∀ n : Byte, f.payload = [n] →
        (23 < n.toNat → exec .readStep s = .next (Refused s f rest 3)) ∧
        (n.toNat ≤ 23 →
          let r := s.sequencer.stepAt n.toNat
          ∃ d : List Byte, exec .readStep s = .next (Answered s f rest d s) ∧ d.length = 18 ∧ byteAt d 0 = n ∧
            (r = none → byteAt d 1 = 0) ∧ (r ≠ none → byteAt d 1 = 1) ∧ Holds1 d 2 (r.map (·.kind.code)) ∧
            HoldsTemp d 3 (r.map fun x => (x.target : Int)) ∧ HoldsTemp d 5 (r.map fun x => (x.depression : Int)) ∧
            Holds1 d 7 (r.map (·.condition.code)) ∧ Holds2 d 8 (r.bind (·.threshold)) ∧ Holds2 d 10 (r.map (·.minimum)) ∧
            Holds2 d 12 (r.map (·.maximum)) ∧ Holds2 d 14 (r.map (·.rampRate)) ∧
            Holds2 d 16 (r.map (·.fanInterval))))) ∧
    (Asked s 0x68 f rest →
      (f.payload.length ≠ 1 → exec .readHistory s = .next (Refused s f rest 2)) ∧
      (∀ n : Byte, f.payload = [n] →
        (23 < n.toNat → exec .readHistory s = .next (Refused s f rest 3)) ∧
        (n.toNat ≤ 23 →
          let h := s.sequencer.history[n.toNat]?
          ∃ d : List Byte, exec .readHistory s = .next (Answered s f rest d s) ∧ d.length = 11 ∧
            Holds1 d 0 (some s.sequencer.history.length) ∧ Holds1 d 1 (h.map (·.step)) ∧
            Holds3 d 2 (h.map (·.entryMinute)) ∧ Holds3 d 5 (h.map (·.exitMinute)) ∧ Holds1 d 8 (h.map (·.reason.code)) ∧
            Holds2 d 9 (h.bind (·.cmcAtExit))))) ∧
    (Asked s 0x67 f rest →
      (f.payload ≠ [] → exec .readSchedule s = .next (Refused s f rest 2)) ∧
      (f.payload = [] →
        let q := s.sequencer
        ∃ d : List Byte, exec .readSchedule s = .next (Answered s f rest d s) ∧ d.length = 23 ∧
          (byteAt d 0).toNat = q.state.code ∧ Holds1 d 1 (some q.stepCount) ∧ Holds1 d 2 q.stepIndex ∧
          Holds2 d 3 (some q.elapsed) ∧ Holds3 d 5 (some q.entryMinute) ∧ Holds3 d 8 (some q.chargeMinute) ∧
          (byteAt d 11).toNat = q.causes.code ∧ Holds1 d 12 (some q.streak) ∧ HoldsTemp d 13 q.working ∧
          HoldsTemp d 15 (q.currentStep.map fun r => (r.target : Int)) ∧ HoldsTemp d 17 q.publishedDry ∧
          HoldsTemp d 19 q.publishedWet ∧
          (q.engaged = false → q.publishedDry = none ∧ q.publishedWet = none) ∧
          (∀ r w, q.engaged = true → q.currentStep = some r → q.working = some w → ∃ k : Int, RoundedQuotient k w 10 ∧
            q.publishedDry = some k ∧ q.publishedWet = some (if k < r.depression then 0 else k - r.depression)) ∧
          (byteAt d 21).toNat = q.fan.code ∧ Holds1 d 22 (some q.history.length)))

/-- START and RESUME: refused BUSY unless the schedule is LOADED and the Field Line RUNNING; otherwise step 0 at
elapsed 0, or step `k` at elapsed `e`, is entered in a schedule that is RUNNING, or HELD with DRIVE_FAULT. The ramp
basis is the mean measured dry-bulb of the AUTO zones with a fresh status, else an enabled dry floor, else the target.
The order of the builds and the notice is the model's (log entry 10). -/
def Obligations.StartResume : Prop :=
  ∀ (f : KilnFrame) (rest : List KilnFrame) (s : State),
    let drys := (List.finRange 8).filterMap fun z =>
      match (s.zone z).mode, (s.zone z).lastStatus with
      | .auto, some st => if (s.zone z).age ≤ 2 then some st.dry else none
      | _, _ => none
    let e := s.zones.envelope
    let basis := fun r : StepRecord =>
      if drys ≠ [] then 10 * roundDiv drys.sum drys.length
      else if e.dryFloor ≤ e.dryCeiling then 10 * e.dryFloor else 10 * (r.target : Int)
    let down := s.drive.lineState.isFault
    let state : ScheduleState := if down then .held else .running
    let causes : Causes := { manual := false, starved := false, fieldFault := false, driveFault := down }
    let code := if down then 8 else 0
    let started := fun (k m : Nat) (r : StepRecord) =>
      raiseNotice .scheduleState state.code (some code) none (tellZones { Taken s rest with
        sequencer := { s.sequencer with
          state := state, stepIndex := some k, elapsed := m, entryMinute := 0, chargeMinute := 0, causes := causes
          streak := 0, history := [], basis := some (basis r), working := some (rampAt r (basis r) m), fan := .forward }
        estimator := { s.estimator with lagFlags := Vector.replicate 8 false } })
    (Asked s 0x60 f rest →
      (f.payload ≠ [] → exec .start s = .next (Refused s f rest 2)) ∧
      (f.payload = [] → s.sequencer.state ≠ .loaded ∨ s.field.lineState ≠ .running →
        exec .start s = .next (Refused s f rest 4)) ∧
      (∀ r, f.payload = [] → s.sequencer.state = .loaded → s.field.lineState = .running →
        s.sequencer.stepAt 0 = some r →
        exec .start s = .next (Answered s f rest [BitVec.ofNat 8 state.code, 0, BitVec.ofNat 8 code]
          (started 0 0 r)))) ∧
    (Asked s 0x61 f rest →
      (f.payload.length ≠ 3 → exec .resume s = .next (Refused s f rest 2)) ∧
      (∀ k hi lo : Byte, f.payload = [k, hi, lo] →
        let m := hi.toNat * 256 + lo.toNat
        (s.sequencer.stepCount ≤ k.toNat → exec .resume s = .next (Refused s f rest 3)) ∧
        (∀ r, k.toNat < s.sequencer.stepCount → s.sequencer.stepAt k.toNat = some r →
          (r.maximum ≤ m → exec .resume s = .next (Refused s f rest 3)) ∧
          (m < r.maximum → s.sequencer.state ≠ .loaded ∨ s.field.lineState ≠ .running →
            exec .resume s = .next (Refused s f rest 4)) ∧
          (m < r.maximum → s.sequencer.state = .loaded → s.field.lineState = .running →
            exec .resume s = .next (Answered s f rest [BitVec.ofNat 8 state.code, k, BitVec.ofNat 8 code]
              (started k.toNat m r))))))

/-- A hold cause added in RUNNING or HELD holds the schedule, and the removal of the last one lets it run: one
SCHEDULE_STATE notice each, and the zones told of a change of state alone. Outside those states, and for a cause that
is present or absent already, nothing changes. HOLD, RELEASE and ABORT: taken in RUNNING and HELD and refused BUSY
elsewhere. HOLD adds MANUAL and RELEASE removes it by those rules; ABORT empties the cause set, raises one notice and
tells the zones. The order of a notice and the builds of one change is the model's (log entry 10). -/
def Obligations.HoldReleaseAbort : Prop :=
  (∀ (h : HoldCause) (s : State),
     let put := fun b : Bool => s.sequencer.causes.put h b
     let moved := fun (c : Causes) (st : ScheduleState) => { s with sequencer := { s.sequencer with causes := c, state := st } }
     (s.sequencer.engaged = false → addCause h s = s ∧ removeCause h s = s) ∧
     (s.sequencer.causes.has h = true → addCause h s = s) ∧
     (s.sequencer.causes.has h = false → removeCause h s = s) ∧
     (s.sequencer.causes.has h = false → s.sequencer.state = .running →
       addCause h s = tellZones (raiseNotice .scheduleState 3 (some (put true).code) none (moved (put true) .held))) ∧
     (s.sequencer.causes.has h = false → s.sequencer.state = .held →
       addCause h s = raiseNotice .scheduleState 3 (some (put true).code) none (moved (put true) .held)) ∧
     (s.sequencer.causes.has h = true → s.sequencer.state = .held → (put false).isEmpty = true →
       removeCause h s = tellZones (raiseNotice .scheduleState 2 (some 0) none (moved (put false) .running))) ∧
     (s.sequencer.causes.has h = true → s.sequencer.state = .held → (put false).isEmpty = false →
       removeCause h s = raiseNotice .scheduleState 3 (some (put false).code) none (moved (put false) .held))) ∧
  (∀ (f : KilnFrame) (rest : List KilnFrame) (s : State),
     let c := s.sequencer.causes
     let code := fun (b : Bool) => BitVec.ofNat 8 ({ c with manual := b } : Causes).code
     let now := BitVec.ofNat 8 s.sequencer.state.code
     (Asked s 0x62 f rest →
       (f.payload ≠ [] → exec .hold s = .next (Refused s f rest 2)) ∧
       (f.payload = [] → s.sequencer.engaged = false → exec .hold s = .next (Refused s f rest 4)) ∧
       (f.payload = [] → s.sequencer.engaged = true → c.manual = true →
         exec .hold s = .next (Answered s f rest [now, code true] s)) ∧
       (f.payload = [] → s.sequencer.engaged = true → c.manual = false →
         exec .hold s = .next (Answered s f rest [3, code true] (addCause .manual (Taken s rest))))) ∧
     (Asked s 0x63 f rest →
       (f.payload ≠ [] → exec .release s = .next (Refused s f rest 2)) ∧
       (f.payload = [] → s.sequencer.engaged = false → exec .release s = .next (Refused s f rest 4)) ∧
       (f.payload = [] → s.sequencer.engaged = true → c.manual = false →
         exec .release s = .next (Answered s f rest [now, code false] s)) ∧
       (f.payload = [] → s.sequencer.engaged = true → c.manual = true →
         exec .release s = .next (Answered s f rest
           [if c.starved ∨ c.fieldFault ∨ c.driveFault then 3 else 2, code false]
           (removeCause .manual (Taken s rest))))) ∧
     (Asked s 0x65 f rest →
       (f.payload ≠ [] → exec .abort s = .next (Refused s f rest 2)) ∧
       (f.payload = [] → s.sequencer.engaged = false → exec .abort s = .next (Refused s f rest 4)) ∧
       (f.payload = [] → s.sequencer.engaged = true →
         exec .abort s = .next (Answered s f rest [5] (tellZones (raiseNotice .scheduleState 5 (some 0) none
           { Taken s rest with sequencer := { s.sequencer with
               state := .aborted
               causes := { manual := false, starved := false, fieldFault := false, driveFault := false } } }))))))

/-- SKIP: the current step exits with the reason SKIPPED. The next step is entered from the working setpoint, and entry
to a time step removes STARVED; or the schedule ends. That the zones are told twice where the removal changes the
state, the state first, is the model's choice (log entry 11). The order of notices and builds is the model's (log entry
10). -/
def Obligations.SkipStep : Prop :=
  ∀ (f : KilnFrame) (rest : List KilnFrame) (s : State), Asked s 0x64 f rest →
    (f.payload ≠ [] → exec .skip s = .next (Refused s f rest 2)) ∧
    (f.payload = [] → s.sequencer.engaged = false → exec .skip s = .next (Refused s f rest 4)) ∧
    (∀ (i : Nat) (w : Int), f.payload = [] → s.sequencer.engaged = true → s.sequencer.stepIndex = some i →
      s.sequencer.working = some w →
      let q := s.sequencer
      let entry : HistoryEntry :=
        { step := i, entryMinute := q.entryMinute, exitMinute := q.chargeMinute, reason := .skipped
          cmcAtExit := s.estimator.current.bind (·.chargeCmc) }
      (∀ r', i + 1 < q.stepCount → q.stepAt (i + 1) = some r' →
        let frees := r'.condition == .time && q.causes.starved
        let causes := if frees then { q.causes with starved := false } else q.causes
        let state := if frees && causes.isEmpty then .running else q.state
        let entered := { Taken s rest with
          sequencer := { q with
            state := state, causes := causes, history := q.history ++ [entry], stepIndex := some (i + 1), elapsed := 0
            entryMinute := q.chargeMinute, basis := some w, working := some (rampAt r' w 0), streak := 0 }
          estimator := { s.estimator with lagFlags := Vector.replicate 8 false } }
        let told := raiseNotice .stepChange (i + 1) (some i) (some 3)
          (tellZones (if state = q.state then entered else tellZones entered))
        exec .skip s = .next (Answered s f rest [3, BitVec.ofNat 8 state.code, BitVec.ofNat 8 (i + 1)]
          (if frees then raiseNotice .scheduleState state.code (some causes.code) none told else told))) ∧
      (q.stepCount ≤ i + 1 →
        exec .skip s = .next (Answered s f rest [3, 4, 255]
          (tellZones (raiseNotice .scheduleState 4 (some 0) none (raiseNotice .stepChange 255 (some i) (some 3)
            { Taken s rest with sequencer := { q with
                state := .ended, history := q.history ++ [entry]
                causes := { manual := false, starved := false, fieldFault := false, driveFault := false } } }))))))

/-- CHARGE_RESET: refused BUSY in RUNNING and HELD; otherwise every block's values for a new charge. A change of the
schedule state raises one notice and is told to the zones; the lines, Curve Store, parameters, faults and Drive Queue
of a schedule that stays where it was are untouched. The order of the notice and the builds is the model's (log entry
10). -/
def Obligations.ChargeReset : Prop :=
  ∀ (f : KilnFrame) (rest : List KilnFrame) (s : State), Asked s 0x66 f rest →
    (f.payload ≠ [] → exec .chargeReset s = .next (Refused s f rest 2)) ∧
    (f.payload = [] → s.sequencer.engaged = true → exec .chargeReset s = .next (Refused s f rest 4)) ∧
    (f.payload = [] → s.sequencer.engaged = false →
      let state : ScheduleState := if s.sequencer.stepCount = 0 then .empty else .loaded
      ∃ u : State,
        (∀ i : Fin 192, u.probe i =
          if (s.probe i).state = .unmapped ∨ ((s.probe i).state = .excluded ∧ (s.probe i).manual = true) then s.probe i
          else { s.probe i with
            state := .settling, manual := false, filtered := none, held := none, progress := 0, streak := 0 }) ∧
        (∀ n : Fin 16, u.node n = { s.node n with
          misses := 0, marginal := 0
          state := if (s.node n).state = .absent then .online else (s.node n).state }) ∧
        (∀ z : Fin 8, u.zone z = { s.zone z with clampedLast := false }) ∧
        u = { Taken s rest with
          probes := u.probes, poller := { s.poller with nodes := u.poller.nodes }
          zones := { s.zones with table := u.zones.table }
          estimator := { s.estimator with current := none, lagFlags := Vector.replicate 8 false }
          sequencer := { s.sequencer with
            state := state, history := [], elapsed := 0, entryMinute := 0, chargeMinute := 0, stepIndex := none
            basis := none, working := none, streak := 0, fan := .forward
            causes := { manual := false, starved := false, fieldFault := false, driveFault := false } } } ∧
        exec .chargeReset s = .next (Answered s f rest [BitVec.ofNat 8 state.code]
          (if s.sequencer.state = state then u else tellZones (raiseNotice .scheduleState state.code (some 0) none u))))

/-! ### Requests on zones -/

/-- SET_ENVELOPE and READ_ENVELOPE: six values within −400..1500 replaced at once outside RUNNING and HELD, and read
back with the state of each pair. -/
def Obligations.EnvelopeRequests : Prop :=
  ∀ (f : KilnFrame) (rest : List KilnFrame) (s : State),
    (Asked s 0x6A f rest →
      let v := fun i : Nat => (byteAt f.payload i ++ byteAt f.payload (i + 1)).toInt
      let fits := ∀ i < 6, -400 ≤ v (2 * i) ∧ v (2 * i) ≤ 1500
      (f.payload.length ≠ 12 → exec .setEnvelope s = .next (Refused s f rest 2)) ∧
      (f.payload.length = 12 → ¬ fits → exec .setEnvelope s = .next (Refused s f rest 3)) ∧
      (f.payload.length = 12 → fits → s.sequencer.engaged = true →
        exec .setEnvelope s = .next (Refused s f rest 4)) ∧
      (f.payload.length = 12 → fits → s.sequencer.engaged = false →
        exec .setEnvelope s = .next (Answered s f rest
          [if v 0 ≤ v 2 then 1 else 0, if v 4 ≤ v 6 then 1 else 0, if v 8 ≤ v 10 then 1 else 0]
          { s with zones := { s.zones with envelope :=
            { dryFloor := v 0, dryCeiling := v 2, wetFloor := v 4, wetCeiling := v 6, depMin := v 8
              depMax := v 10 } } }))) ∧
    (Asked s 0x6B f rest →
      (f.payload ≠ [] → exec .readEnvelope s = .next (Refused s f rest 2)) ∧
      (f.payload = [] →
        let e := s.zones.envelope
        ∃ d : List Byte, exec .readEnvelope s = .next (Answered s f rest d s) ∧ d.length = 15 ∧
          HoldsTemp d 0 (some e.dryFloor) ∧ HoldsTemp d 2 (some e.dryCeiling) ∧ HoldsTemp d 4 (some e.wetFloor) ∧
          HoldsTemp d 6 (some e.wetCeiling) ∧ HoldsTemp d 8 (some e.depMin) ∧ HoldsTemp d 10 (some e.depMax) ∧
          byteAt d 12 = (if e.dryFloor ≤ e.dryCeiling then 1 else 0) ∧
          byteAt d 13 = (if e.wetFloor ≤ e.wetCeiling then 1 else 0) ∧
          byteAt d 14 = (if e.depMin ≤ e.depMax then 1 else 0)))

/-- SET_ZONE_MODE: the present mode changes nothing. Another one removes the zone's pending frame, drops a manual
record on leaving MANUAL and builds the frame of AUTO (a SCHEDULE frame of the current step in RUNNING and HELD, else
an IDLE one) or of OFF (an IDLE one), which joins the back of the Drive Queue while the others keep their order;
entering MANUAL builds nothing. An exchange in flight is kept, and without one the oldest frame is handed over
(ExchangeOpens). A clamped frame raises ENVELOPE_CLAMP when the zone's frame before was not clamped, and nothing else
raises a notice. Other zones are untouched; that a frame queued at power-up is handed over first is the model's (log
entry 7). -/
def Obligations.SetZoneMode : Prop :=
  [ZoneMode.off, .auto, .manual].map (·.code) = [0, 1, 2] ∧
  [DriverState.unknown, .answering, .silent].map (·.code) = [0, 1, 2] ∧
  ∀ (f : KilnFrame) (rest : List KilnFrame) (s : State), Asked s 0x6C f rest →
    (f.payload.length ≠ 2 → exec .setZoneMode s = .next (Refused s f rest 2)) ∧
    (∀ a m : Byte, f.payload = [a, m] →
      (7 < a.toNat ∨ 2 < m.toNat → exec .setZoneMode s = .next (Refused s f rest 3)) ∧
      (∀ (z : Fin 8) (mode : ZoneMode), a.toNat = z.val → m.toNat = mode.code →
        let e := s.zone z
        let data := [a, m, BitVec.ofNat 8 e.driver.code]
        let kept := { e with mode := mode, manual := if e.mode = .manual then none else e.manual }
        let u := openExchange s
        let others := u.zones.queue.filter fun q => q.zone != z
        let built := fun c : FrameContent =>
          { kept with lastBuilt := builtFrame s z c, nextTag := e.nextTag + 1, clampedLast := (builtFrame s z c).marks.any }
        (e.mode = mode → exec .setZoneMode s = .next (Answered s f rest data s)) ∧
        (e.mode ≠ mode → ∃ t : State, exec .setZoneMode s = .next (Answered s f rest data t) ∧
          t = { Taken s rest with
            zones := t.zones, drive := { s.drive with slot := t.drive.slot }, notices := t.notices } ∧
          t.zones.envelope = s.zones.envelope ∧ t.zones.periodTimer = s.zones.periodTimer ∧
          (∀ y, y ≠ z → t.zone y = s.zone y) ∧
          (∀ q ∈ s.zones.queue, q.zone ≠ z → q ∈ t.zones.queue ∨ ∃ x, t.zones.exchange = some x ∧ x.entry = q) ∧
          (∀ x, s.zones.exchange = some x → t.zones.exchange = some x ∧ t.drive = s.drive) ∧
          (mode = .manual → t.zone z = kept ∧ (∀ q ∈ t.zones.queue, q.zone ≠ z) ∧ t.notices = s.notices ∧
            t.zones.queue = others ∧ t.zones.exchange = u.zones.exchange ∧ t.drive = u.drive) ∧
          (mode ≠ .manual →
            let frame : QueuedFrame := { zone := z, frame := (t.zone z).lastBuilt, modeAtBuild := mode }
            let placed := openExchange { u with zones := { u.zones with queue := others ++ [frame] } }
            t.zones.queue = placed.zones.queue ∧ t.zones.exchange = placed.zones.exchange ∧ t.drive = placed.drive) ∧
          (mode = .auto ∧ s.sequencer.engaged = false ∨ mode = .off → t.notices = s.notices ∧
            t.zone z = { kept with nextTag := e.nextTag + 1, clampedLast := false, lastBuilt :=
              { tag := e.nextTag, origin := .idle, fanRun := false, direction := .forward, stage := .none
                setpoints := none, marks := noMarks } }) ∧
          (∀ (r : StepRecord) (w : Int), mode = .auto → s.sequencer.engaged = true →
            s.sequencer.currentStep = some r → s.sequencer.working = some w →
            let c := clampSetpoints s.zones.envelope
              { dry := roundDiv w 10, wet := max 0 (roundDiv w 10 - r.depression) }
            t.zone z = { kept with nextTag := e.nextTag + 1, clampedLast := c.2.any, lastBuilt :=
              { tag := e.nextTag, origin := .schedule, fanRun := true, direction := s.sequencer.fan
                stage := r.kind.stage, setpoints := some c.1, marks := c.2 } } ∧
            t.notices = (if c.2.any = true ∧ e.clampedLast = false then s.notices.add
              { kind := .envelopeClamp, subject := z.val, minute := s.uptime, value1 := some c.2.code, value2 := some 1 }
              else s.notices)) ∧
          (mode = .auto → t.zone z = built (scheduleContent s.sequencer)) ∧
          (mode = .off → t.zone z = built
            { origin := .idle, fanRun := false, direction := .forward, stage := .none, setpoints := none }) ∧
          (mode ≠ .manual → (∃ q ∈ t.zones.queue, q.zone = z ∧ q.frame = (t.zone z).lastBuilt) ∨
            (∃ x, t.zones.exchange = some x ∧ x.entry.zone = z ∧ x.entry.frame = (t.zone z).lastBuilt)))))

/-- READ_ZONE: every field of the zone at its offset, with its pending frame and its exchange in flight; nothing
changes. A frame due to be handed over is reported as handed over: right after power-up that is zone 0's (log entry 7).
The codes of zone modes, driver states, frame origins, stages, clamp marks and alarms are those of section 11.3. The
bytes of an absent manual record and status are read from R167 (log entry 21). -/
def Obligations.ReadZone : Prop :=
  [ZoneMode.off, .auto, .manual].map (·.code) = [0, 1, 2] ∧
  [DriverState.unknown, .answering, .silent].map (·.code) = [0, 1, 2] ∧
  [FrameOrigin.idle, .schedule, .supervisor].map (·.code) = [0, 1, 2] ∧
  [Stage.none, .heatUp, .dry, .equalize, .condition, .cool].map (·.code) = [0, 1, 2, 3, 4, 5] ∧
  (∀ m : ClampMarks, m.code = (if m.dry then 1 else 0) + (if m.depression then 2 else 0) + (if m.wet then 4 else 0)) ∧
  (∀ a : Alarms, a.code = (if a.overTemp then 1 else 0) + (if a.fanFail then 2 else 0) + (if a.waterLow then 4 else 0) +
    (if a.localControl then 8 else 0)) ∧
  ∀ (f : KilnFrame) (rest : List KilnFrame) (s : State), Asked s 0x6D f rest →
    (f.payload.length ≠ 1 → exec .readZone s = .next (Refused s f rest 2)) ∧
    (∀ n : Byte, f.payload = [n] →
      (7 < n.toNat → exec .readZone s = .next (Refused s f rest 3)) ∧
      (∀ z : Fin 8, n.toNat = z.val →
        let e := s.zone z
        let b := e.lastBuilt
        let due := (openExchange s).zones
        let flags := fun (sp : Option Setpoints) (run : Bool) (dir : FanDirection) =>
          (if sp.isSome then 1 else 0) + (if run then 2 else 0) + (if dir = .reverse then 4 else 0)
        let points := fun (d : List Byte) (k : Nat) (sp : Option Setpoints) =>
          HoldsTemp d k (some ((sp.map (·.dry)).getD 0)) ∧ HoldsTemp d (k + 2) (some ((sp.map (·.wet)).getD 0))
        ∃ d : List Byte, exec .readZone s = .next (Answered s f rest d s) ∧ d.length = 34 ∧ byteAt d 0 = n ∧
          (byteAt d 1).toNat = e.mode.code ∧ (byteAt d 2).toNat = e.driver.code ∧ Holds1 d 3 (some e.misses) ∧
          HoldsTemp d 4 (e.lastStatus.map (·.dry)) ∧ HoldsTemp d 6 (e.lastStatus.map (·.wet)) ∧
          Holds1 d 8 (e.lastStatus.map (·.heat)) ∧ Holds1 d 9 (e.lastStatus.map (·.vent)) ∧
          Holds1 d 10 (e.lastStatus.map (·.spray)) ∧ Holds1 d 11 (e.lastStatus.map (·.alarms.code)) ∧
          Holds1 d 12 (some e.age) ∧ byteAt d 13 = (if e.lastStatus ≠ none ∧ e.age ≤ 2 then 1 else 0) ∧
          (e.manual = none → byteAt d 14 = 0 ∧ byteAt d 15 = 0xFF ∧ HoldsTemp d 16 none ∧ HoldsTemp d 18 none) ∧
          (∀ r, e.manual = some r → (byteAt d 14).toNat = flags r.setpoints r.fanRun r.direction ∧
            (byteAt d 15).toNat = r.stage.code ∧ points d 16 r.setpoints) ∧
          byteAt d 20 = b.tag ∧
          (byteAt d 21).toNat = flags b.setpoints b.fanRun b.direction + 8 * b.origin.code + 32 * b.marks.code ∧
          (byteAt d 22).toNat = b.stage.code ∧ points d 23 b.setpoints ∧ byteAt d 27 = e.nextTag ∧
          byteAt d 28 = (if e.clampedLast then 1 else 0) ∧
          ((∀ q ∈ due.queue, q.zone ≠ z) → byteAt d 29 = 0 ∧ byteAt d 30 = 0xFF) ∧
          ((∃ q ∈ due.queue, q.zone = z) →
            byteAt d 29 = 1 ∧ ∃ q ∈ due.queue, q.zone = z ∧ byteAt d 30 = q.frame.tag) ∧
          ((∀ x, due.exchange = some x → x.entry.zone ≠ z) →
            byteAt d 31 = 0 ∧ byteAt d 32 = 0xFF ∧ byteAt d 33 = 0xFF) ∧
          (∀ x, due.exchange = some x → x.entry.zone = z →
            byteAt d 31 = 1 ∧ byteAt d 32 = (if x.phase = .waiting then 1 else 0) ∧ byteAt d 33 = x.entry.frame.tag)))

/-- ZONE_SET, the front frame standing in the zone window: the checks in their order, a single zone outside MANUAL
refused, and otherwise the record taken, and a SUPERVISOR frame built from it and clamped into the envelope, with the
zone's tag, by every zone named that is in MANUAL; DONE with their count, CLAMPED when a frame built carries a clamp
mark. Each zone whose frame is clamped, and whose frame before was not, raises ENVELOPE_CLAMP, in ascending zone, and
nothing else raises a notice. In the Drive Queue each new frame replaces its zone's pending frame in place, or joins
the back in ascending zone, and all others keep their places; an exchange in flight is kept, and without one the oldest
frame is then handed over (ExchangeOpens). Where no zone takes the frame, zones, queue and notices are kept. The frames
queued at power-up are handed over before (log entry 7). Premise of the places: one frame at most for a zone, which
every step keeps. -/
def Obligations.ZoneSet : Prop :=
  [Stage.none, .heatUp, .dry, .equalize, .condition, .cool].map (·.code) = [0, 1, 2, 3, 4, 5] ∧
  ∀ (f : KilnFrame) (rest : List KilnFrame) (s : State) (target : ZoneTarget), AtFront s f rest → f.cls = .window target →
    let p := f.payload
    let flag := fun k : Nat => (byteAt p 1).getLsbD k
    let dry := (byteAt p 3 ++ byteAt p 4).toInt
    let wet := (byteAt p 5 ++ byteAt p 6).toInt
    let fits := (byteAt p 2).toNat ≤ 5 ∧
      (flag 0 = true → (-400 ≤ dry ∧ dry ≤ 1500) ∧ (-400 ≤ wet ∧ wet ≤ 1500))
    let takes := fun z : Fin 8 => (target = .one z ∨ target = .all) ∧ (s.zone z).mode = .manual
    (f.kind ≠ 0x31 → exec .zoneSet s = .next (Refused s f rest 1)) ∧
    (f.kind = 0x31 → p.length ≠ 7 → exec .zoneSet s = .next (Refused s f rest 2)) ∧
    (f.kind = 0x31 → p.length = 7 → ¬ fits → exec .zoneSet s = .next (Refused s f rest 3)) ∧
    (∀ z, f.kind = 0x31 → p.length = 7 → fits → target = .one z → (s.zone z).mode = .auto →
      exec .zoneSet s = .next (Refused s f rest 6)) ∧
    (∀ z, f.kind = 0x31 → p.length = 7 → fits → target = .one z → (s.zone z).mode = .off →
      exec .zoneSet s = .next (Refused s f rest 7)) ∧
    (f.kind = 0x31 → p.length = 7 → fits → (∀ z, target = .one z → (s.zone z).mode = .manual) →
      ∃ (r : ManualRecord) (count : Nat) (clamped : Bool) (t : State),
        r.fanRun = flag 1 ∧ r.direction = (if flag 2 then .reverse else .forward) ∧
        r.stage.code = (byteAt p 2).toNat ∧ r.setpoints = (if flag 0 then some { dry := dry, wet := wet } else none) ∧
        exec .zoneSet s = .next (AnsweredWith clamped s f rest [BitVec.ofNat 8 count] t) ∧
        (∀ z, target = .one z → count = 1) ∧
        (target = .all → count = (List.finRange 8).countP fun z => (s.zone z).mode == .manual) ∧
        let frame := fun z : Fin 8 =>
          ({ tag := (s.zone z).nextTag, origin := .supervisor, fanRun := r.fanRun, direction := r.direction, stage := r.stage
             setpoints := r.setpoints.map fun x => (clampSetpoints s.zones.envelope x).1
             marks := (r.setpoints.map fun x => (clampSetpoints s.zones.envelope x).2).getD noMarks } : SetpointFrame)
        (clamped = true ↔ ∃ z, takes z ∧ (frame z).marks.any = true) ∧
        let entry := fun z : Fin 8 => ({ zone := z, frame := frame z, modeAtBuild := .manual } : QueuedFrame)
        let u := openExchange s
        let placed := openExchange { u with zones := { u.zones with
          queue := u.zones.queue.map (fun q => if takes q.zone then entry q.zone else q) ++
            ((List.finRange 8).filter fun z => decide (takes z) && u.zones.queue.all fun q => q.zone != z).map entry } }
        t.notices = ((List.finRange 8).filter fun z =>
            decide (takes z) && (frame z).marks.any && !(s.zone z).clampedLast).foldl
          (fun q z => q.add { kind := .envelopeClamp, subject := z.val, minute := s.uptime
                              value1 := some (frame z).marks.code, value2 := some 2 }) s.notices ∧
        ((∀ z, ¬ takes z) → t.zones = s.zones ∧ t.drive = s.drive) ∧
        (QueueSound s.zones → (∃ z, takes z) → t.zones.queue = placed.zones.queue ∧
          t.zones.exchange = placed.zones.exchange ∧ t.drive = placed.drive) ∧
        (∀ x, s.zones.exchange = some x → t.zones.exchange = some x ∧ t.drive = s.drive) ∧
        (∀ z, ¬ takes z → t.zone z = s.zone z) ∧
        (∀ z, takes z → t.zone z = { s.zone z with
            manual := some r, lastBuilt := frame z, nextTag := (s.zone z).nextTag + 1
            clampedLast := (frame z).marks.any } ∧
          ((∃ q ∈ t.zones.queue, q.zone = z ∧ q.frame = (t.zone z).lastBuilt) ∨
            (∃ x, t.zones.exchange = some x ∧ x.entry.zone = z ∧ x.entry.frame = (t.zone z).lastBuilt))) ∧
        t = { Taken s rest with
          zones := t.zones, drive := { s.drive with slot := t.drive.slot }, notices := t.notices } ∧
        t.zones.envelope = s.zones.envelope ∧ t.zones.periodTimer = s.zones.periodTimer)

/-! ### Faults, notices and the intake queue -/

/-- A fault raised: it collapses into the present record of its source and reason, or takes the lowest free record with
a notice, or is lost, which the first loss after a clear reports. -/
def Obligations.FaultRaised : Prop :=
  ∀ (source : FaultSource) (reason : FaultReason) (detail : Option Int) (s : State),
    let set := fun (i : Fin 16) (r : FaultRecord) =>
      { s with faults := { s.faults with records := s.faults.records.set i (some r) } }
    (∀ (i : Fin 16) (r : FaultRecord), FaultsSound s.faults → s.faults.records[i] = some r → r.source = source →
      r.reason = reason →
      raiseFault source reason detail s =
        set i { r with repeats := min (r.repeats + 1) 255, lastSeen := s.uptime, detail := detail }) ∧
    ((∀ (i : Fin 16) (r : FaultRecord), s.faults.records[i] = some r → r.source ≠ source ∨ r.reason ≠ reason) →
      (∀ i : Fin 16, s.faults.records[i] = none → (∀ j : Fin 16, j < i → s.faults.records[j] ≠ none) →
        raiseFault source reason detail s =
          raiseNotice .faultRecorded i.val (some reason.code) (some source.number)
            (set i { source := source, reason := reason, firstSeen := s.uptime, lastSeen := s.uptime, repeats := 1
                     detail := detail })) ∧
      ((∀ i : Fin 16, s.faults.records[i] ≠ none) → s.faults.overflow = false →
        raiseFault source reason detail s = raiseNotice .faultLost reason.code (some source.number) none
          { s with faults := { s.faults with overflow := true } }) ∧
      ((∀ i : Fin 16, s.faults.records[i] ≠ none) → s.faults.overflow = true → raiseFault source reason detail s = s))

/-- READ_FAULT and CLEAR_FAULTS: a record read with every field at its offset, and one record or all of them freed. The
codes of source kinds and reasons are those of section 11.3, and a source's number that of its probe, node, zone or
line. That an absent detail is sent as 0xFFFF is read from R167 (log entry 21). -/
def Obligations.FaultRequests : Prop :=
  (∀ (p : Fin 192) (n : Fin 16) (z : Fin 8), [FaultSource.probe p, .node n, .zone z, .line .field, .line .drive].map
    (fun x => (x.kindCode, x.number)) = [(0, p.val), (1, n.val), (2, z.val), (3, 0), (3, 1)]) ∧
  [FaultReason.probeOpen, .probeShort, .probeGuard, .probeJump, .probeExcluded, .nodeAbsent, .nodeMarginal,
    .nodeTempFault, .zoneNoAnswer, .zoneAlarm, .lineStuck].map (·.code) = [1, 2, 3, 4, 5, 6, 7, 8, 9, 10, 11] ∧
  ∀ (f : KilnFrame) (rest : List KilnFrame) (s : State),
    let present := (List.finRange 16).countP fun i => s.faults.records[i] != none
    (Asked s 0x6E f rest →
      (f.payload.length ≠ 1 → exec .readFault s = .next (Refused s f rest 2)) ∧
      (∀ n : Byte, f.payload = [n] →
        (15 < n.toNat → exec .readFault s = .next (Refused s f rest 3)) ∧
        (∀ i : Fin 16, n.toNat = i.val →
          let r := s.faults.records[i]
          ∃ d : List Byte, exec .readFault s = .next (Answered s f rest d s) ∧ d.length = 16 ∧ byteAt d 0 = n ∧
            (r = none → byteAt d 1 = 0) ∧ (r ≠ none → byteAt d 1 = 1) ∧ Holds1 d 2 (r.map (·.source.kindCode)) ∧
            Holds1 d 3 (r.map (·.source.number)) ∧ Holds1 d 4 (r.map (·.reason.code)) ∧ Holds3 d 5 (r.map (·.firstSeen)) ∧
            Holds3 d 8 (r.map (·.lastSeen)) ∧ Holds1 d 11 (r.map (·.repeats)) ∧
            (r.bind (·.detail) = none → byteAt d 12 = 0xFF ∧ byteAt d 13 = 0xFF) ∧
            (∀ x : Int, r.bind (·.detail) = some x → HoldsTemp d 12 (some x)) ∧
            (byteAt d 14).toNat = present ∧ byteAt d 15 = (if s.faults.overflow then 1 else 0)))) ∧
    (Asked s 0x6F f rest →
      (f.payload.length ≠ 1 → exec .clearFaults s = .next (Refused s f rest 2)) ∧
      (∀ n : Byte, f.payload = [n] →
        (15 < n.toNat → n.toNat < 255 → exec .clearFaults s = .next (Refused s f rest 3)) ∧
        (n = 255 → exec .clearFaults s = .next (Answered s f rest [BitVec.ofNat 8 present, 0]
          { s with faults := { records := Vector.replicate 16 none, overflow := false } })) ∧
        (∀ i : Fin 16, n.toNat = i.val → exec .clearFaults s = .next (Answered s f rest
          [if s.faults.records[i] = none then 0 else 1, if s.faults.overflow then 1 else 0]
          { s with faults := { s.faults with records := s.faults.records.set i none } }))))

/-- A notice raised joins the back of a queue of fewer than 32 with the uptime minute, or is dropped with the LOST
marker set; COLLECT_NOTICES removes the oldest from the front, reports them with the marker, and clears the marker.
ATTN is asserted while attention is enabled and the queue or the marker has something to report. The codes of notice
kinds are those of section 11.3. -/
def Obligations.Notices : Prop :=
  [NoticeKind.stepChange, .scheduleState, .faultRecorded, .faultLost, .zoneLag, .envelopeClamp].map (·.code) =
    [1, 2, 3, 4, 5, 6] ∧
  (∀ (kind : NoticeKind) (n : Nat) (a b : Option Nat) (s : State),
    (s.notices.items.length < 32 → raiseNotice kind n a b s = { s with notices := { s.notices with
      items := s.notices.items ++ [{ kind := kind, subject := n, minute := s.uptime, value1 := a, value2 := b }] } }) ∧
    (32 ≤ s.notices.items.length →
      raiseNotice kind n a b s = { s with notices := { s.notices with lost := true } })) ∧
  (∀ (f : KilnFrame) (rest : List KilnFrame) (s : State), Asked s 0x57 f rest →
    (f.payload.length ≠ 1 → exec .collectNotices s = .next (Refused s f rest 2)) ∧
    (∀ n : Byte, f.payload = [n] →
      (n.toNat = 0 ∨ 4 < n.toNat → exec .collectNotices s = .next (Refused s f rest 3)) ∧
      (1 ≤ n.toNat → n.toNat ≤ 4 →
        let q := s.notices.items
        let k := min n.toNat q.length
        ∃ d : List Byte, exec .collectNotices s = .next (Answered s f rest d
            { s with notices := { items := q.drop k, lost := false } }) ∧
          d.length = 3 + 9 * k ∧ (byteAt d 0).toNat = k ∧
          (∀ (i : Nat) (x : Notice), i < k → q[i]? = some x →
            (byteAt d (1 + 9 * i)).toNat = x.kind.code ∧ Holds1 d (2 + 9 * i) (some x.subject) ∧
            Holds3 d (3 + 9 * i) (some x.minute) ∧ Holds2 d (6 + 9 * i) x.value1 ∧ Holds2 d (8 + 9 * i) x.value2) ∧
          byteAt d (1 + 9 * k) = (if s.notices.lost then 1 else 0) ∧
          Holds1 d (2 + 9 * k) (some (q.length - k))))) ∧
  (∀ s : State, s.attn = true ↔ s.param .attentionEnable = 1 ∧ (s.notices.items ≠ [] ∨ s.notices.lost = true))

/-- A frame delivered on the Kiln Line: the class of its address by the first test that matches, the frames admitted,
the full queue that drops one as FULL, and KL_RDY deasserted at a count of 6. A frame admitted, or dropped at the full
queue, is noted as the one completed last (log entry 28). -/
def Obligations.Admission : Prop :=
  ∀ (f : Frame) (noisy : Bool) (s : State),
    let a := f.address.toNat
    let base := 128 + 16 * s.straps.addr.toNat
    let joined := fun cls : AddressClass =>
      let x : KilnFrame := { cls := cls, address := f.address, kind := f.kind, payload := f.payload, noisy := noisy }
      let noted := some { frame := x, discardBefore := s.kiln.lastDiscard }
      if s.handler.intake.length < 8 then
        { s with handler := { s.handler with
          intake := s.handler.intake ++ [x], completed := noted
          klRdy := s.handler.klRdy && s.handler.intake.length != 5 } }
      else { s with
        kiln := { s.kiln with lastDiscard := .full }, handler := { s.handler with completed := noted } }
    let group := fun cls : AddressClass =>
      if (f.kind = 0x62 ∨ f.kind = 0x63 ∨ f.kind = 0x65) ∧ s.param .groupControlEnable = 1 then joined cls else s
    let slot := s.handler.slot1
    let matched := slot.valid = true ∧ ∀ k < 8, slot.mask.getLsbD k = true → f.address.getLsbD k = slot.address.getLsbD k
    (a = 16 + s.straps.addr.toNat → kilnDelivered f noisy s = joined .station) ∧
    (∀ z : Fin 8, a = base + z.val → kilnDelivered f noisy s = joined (.window (.one z))) ∧
    (a = base + 8 → kilnDelivered f noisy s = joined (.window .all)) ∧
    (a = 255 → kilnDelivered f noisy s = group .broadcast) ∧
    (a ≠ 16 + s.straps.addr.toNat → a < base ∨ base + 8 < a → a ≠ 255 →
      (matched → kilnDelivered f noisy s = group .slot1) ∧ (¬ matched → kilnDelivered f noisy s = s))

/-! ### What every step keeps -/

/-- Every step keeps the intake queue within 8 frames and KL_RDY within its hysteresis. -/
def Obligations.IntakeKept : Prop :=
  ∀ s t : State, IntakeSound s.handler → step s = .next t → IntakeSound t.handler

/-- Every step keeps the notices within 32, and one record alone for a source and reason. -/
def Obligations.RecordsKept : Prop :=
  ∀ s t : State, step s = .next t →
    (NoticesSound s.notices → NoticesSound t.notices) ∧ (FaultsSound s.faults → FaultsSound t.faults)

/-- Every step keeps the hold-cause set empty outside HELD and non-empty in HELD, and a RUNNING or HELD schedule in a
loaded step below its count and below its maximum duration. -/
def Obligations.ScheduleKept : Prop :=
  ∀ s t : State, CausesSound s.sequencer → ScheduleSound s.sequencer → step s = .next t →
    CausesSound t.sequencer ∧ ScheduleSound t.sequencer

/-- Every step keeps the parameters within their limits, the loaded curves sound, the probe map one to one, the node
table by the probe map (a node VACANT exactly when no mapped entry names it, its mask the channels of those that do), a
figure with every contributor, and one frame at most in the Drive Queue for a zone. -/
def Obligations.TablesKept : Prop :=
  ∀ s t : State, step s = .next t →
    (ParamsSound s.params → ParamsSound t.params) ∧ (CurvesSound s.curves → CurvesSound t.curves) ∧
    (ProbesSound s.probes → ProbesSound t.probes) ∧
    (ProbesSound s.probes → NodesSound s.poller.nodes s.probes → NodesSound t.poller.nodes t.probes) ∧
    (FiguresSound s.probes → FiguresSound t.probes) ∧
    (QueueSound s.zones → QueueSound t.zones)
end

