-- ==== Sys2Proof/Laws/State.lean ====
section
/-! SUPPORT. What each named update of the state leaves in each field. -/

namespace Sys2Proof.Machine

/-! ### `State.setNode` -/

@[simp] theorem State.setNode_pending (s : State) (n : Fin 16) (e : NodeEntry) : (s.setNode n e).pending = s.pending := rfl
@[simp] theorem State.setNode_straps (s : State) (n : Fin 16) (e : NodeEntry) : (s.setNode n e).straps = s.straps := rfl
@[simp] theorem State.setNode_params (s : State) (n : Fin 16) (e : NodeEntry) : (s.setNode n e).params = s.params := rfl
@[simp] theorem State.setNode_uptime (s : State) (n : Fin 16) (e : NodeEntry) : (s.setNode n e).uptime = s.uptime := rfl
@[simp] theorem State.setNode_field (s : State) (n : Fin 16) (e : NodeEntry) : (s.setNode n e).field = s.field := rfl
@[simp] theorem State.setNode_drive (s : State) (n : Fin 16) (e : NodeEntry) : (s.setNode n e).drive = s.drive := rfl
@[simp] theorem State.setNode_kiln (s : State) (n : Fin 16) (e : NodeEntry) : (s.setNode n e).kiln = s.kiln := rfl
@[simp] theorem State.setNode_probes (s : State) (n : Fin 16) (e : NodeEntry) : (s.setNode n e).probes = s.probes := rfl
@[simp] theorem State.setNode_curves (s : State) (n : Fin 16) (e : NodeEntry) : (s.setNode n e).curves = s.curves := rfl
@[simp] theorem State.setNode_estimator (s : State) (n : Fin 16) (e : NodeEntry) : (s.setNode n e).estimator = s.estimator := rfl
@[simp] theorem State.setNode_sequencer (s : State) (n : Fin 16) (e : NodeEntry) : (s.setNode n e).sequencer = s.sequencer := rfl
@[simp] theorem State.setNode_zones (s : State) (n : Fin 16) (e : NodeEntry) : (s.setNode n e).zones = s.zones := rfl
@[simp] theorem State.setNode_faults (s : State) (n : Fin 16) (e : NodeEntry) : (s.setNode n e).faults = s.faults := rfl
@[simp] theorem State.setNode_notices (s : State) (n : Fin 16) (e : NodeEntry) : (s.setNode n e).notices = s.notices := rfl
@[simp] theorem State.setNode_handler (s : State) (n : Fin 16) (e : NodeEntry) : (s.setNode n e).handler = s.handler := rfl

/-! ### `State.setStaging` -/

@[simp] theorem State.setStaging_pending (s : State) (x : Option Staging) : (s.setStaging x).pending = s.pending := rfl
@[simp] theorem State.setStaging_straps (s : State) (x : Option Staging) : (s.setStaging x).straps = s.straps := rfl
@[simp] theorem State.setStaging_params (s : State) (x : Option Staging) : (s.setStaging x).params = s.params := rfl
@[simp] theorem State.setStaging_uptime (s : State) (x : Option Staging) : (s.setStaging x).uptime = s.uptime := rfl
@[simp] theorem State.setStaging_field (s : State) (x : Option Staging) : (s.setStaging x).field = s.field := rfl
@[simp] theorem State.setStaging_drive (s : State) (x : Option Staging) : (s.setStaging x).drive = s.drive := rfl
@[simp] theorem State.setStaging_kiln (s : State) (x : Option Staging) : (s.setStaging x).kiln = s.kiln := rfl
@[simp] theorem State.setStaging_probes (s : State) (x : Option Staging) : (s.setStaging x).probes = s.probes := rfl
@[simp] theorem State.setStaging_curves (s : State) (x : Option Staging) : (s.setStaging x).curves = s.curves := rfl
@[simp] theorem State.setStaging_estimator (s : State) (x : Option Staging) : (s.setStaging x).estimator = s.estimator := rfl
@[simp] theorem State.setStaging_sequencer (s : State) (x : Option Staging) : (s.setStaging x).sequencer = s.sequencer := rfl
@[simp] theorem State.setStaging_zones (s : State) (x : Option Staging) : (s.setStaging x).zones = s.zones := rfl
@[simp] theorem State.setStaging_faults (s : State) (x : Option Staging) : (s.setStaging x).faults = s.faults := rfl
@[simp] theorem State.setStaging_notices (s : State) (x : Option Staging) : (s.setStaging x).notices = s.notices := rfl
@[simp] theorem State.setStaging_handler (s : State) (x : Option Staging) : (s.setStaging x).handler = s.handler := rfl

/-! ### `State.setOutcome` -/

@[simp] theorem State.setOutcome_pending (s : State) (n : Fin 16) (o : ScanOutcome) : (s.setOutcome n o).pending = s.pending := rfl
@[simp] theorem State.setOutcome_straps (s : State) (n : Fin 16) (o : ScanOutcome) : (s.setOutcome n o).straps = s.straps := rfl
@[simp] theorem State.setOutcome_params (s : State) (n : Fin 16) (o : ScanOutcome) : (s.setOutcome n o).params = s.params := rfl
@[simp] theorem State.setOutcome_uptime (s : State) (n : Fin 16) (o : ScanOutcome) : (s.setOutcome n o).uptime = s.uptime := rfl
@[simp] theorem State.setOutcome_field (s : State) (n : Fin 16) (o : ScanOutcome) : (s.setOutcome n o).field = s.field := rfl
@[simp] theorem State.setOutcome_drive (s : State) (n : Fin 16) (o : ScanOutcome) : (s.setOutcome n o).drive = s.drive := rfl
@[simp] theorem State.setOutcome_kiln (s : State) (n : Fin 16) (o : ScanOutcome) : (s.setOutcome n o).kiln = s.kiln := rfl
@[simp] theorem State.setOutcome_probes (s : State) (n : Fin 16) (o : ScanOutcome) : (s.setOutcome n o).probes = s.probes := rfl
@[simp] theorem State.setOutcome_curves (s : State) (n : Fin 16) (o : ScanOutcome) : (s.setOutcome n o).curves = s.curves := rfl
@[simp] theorem State.setOutcome_estimator (s : State) (n : Fin 16) (o : ScanOutcome) : (s.setOutcome n o).estimator = s.estimator := rfl
@[simp] theorem State.setOutcome_sequencer (s : State) (n : Fin 16) (o : ScanOutcome) : (s.setOutcome n o).sequencer = s.sequencer := rfl
@[simp] theorem State.setOutcome_zones (s : State) (n : Fin 16) (o : ScanOutcome) : (s.setOutcome n o).zones = s.zones := rfl
@[simp] theorem State.setOutcome_faults (s : State) (n : Fin 16) (o : ScanOutcome) : (s.setOutcome n o).faults = s.faults := rfl
@[simp] theorem State.setOutcome_notices (s : State) (n : Fin 16) (o : ScanOutcome) : (s.setOutcome n o).notices = s.notices := rfl
@[simp] theorem State.setOutcome_handler (s : State) (n : Fin 16) (o : ScanOutcome) : (s.setOutcome n o).handler = s.handler := rfl

/-! ### `State.setProbe` -/

@[simp] theorem State.setProbe_pending (s : State) (p : Fin 192) (e : ProbeEntry) : (s.setProbe p e).pending = s.pending := rfl
@[simp] theorem State.setProbe_straps (s : State) (p : Fin 192) (e : ProbeEntry) : (s.setProbe p e).straps = s.straps := rfl
@[simp] theorem State.setProbe_params (s : State) (p : Fin 192) (e : ProbeEntry) : (s.setProbe p e).params = s.params := rfl
@[simp] theorem State.setProbe_uptime (s : State) (p : Fin 192) (e : ProbeEntry) : (s.setProbe p e).uptime = s.uptime := rfl
@[simp] theorem State.setProbe_field (s : State) (p : Fin 192) (e : ProbeEntry) : (s.setProbe p e).field = s.field := rfl
@[simp] theorem State.setProbe_drive (s : State) (p : Fin 192) (e : ProbeEntry) : (s.setProbe p e).drive = s.drive := rfl
@[simp] theorem State.setProbe_kiln (s : State) (p : Fin 192) (e : ProbeEntry) : (s.setProbe p e).kiln = s.kiln := rfl
@[simp] theorem State.setProbe_poller (s : State) (p : Fin 192) (e : ProbeEntry) : (s.setProbe p e).poller = s.poller := rfl
@[simp] theorem State.setProbe_curves (s : State) (p : Fin 192) (e : ProbeEntry) : (s.setProbe p e).curves = s.curves := rfl
@[simp] theorem State.setProbe_estimator (s : State) (p : Fin 192) (e : ProbeEntry) : (s.setProbe p e).estimator = s.estimator := rfl
@[simp] theorem State.setProbe_sequencer (s : State) (p : Fin 192) (e : ProbeEntry) : (s.setProbe p e).sequencer = s.sequencer := rfl
@[simp] theorem State.setProbe_zones (s : State) (p : Fin 192) (e : ProbeEntry) : (s.setProbe p e).zones = s.zones := rfl
@[simp] theorem State.setProbe_faults (s : State) (p : Fin 192) (e : ProbeEntry) : (s.setProbe p e).faults = s.faults := rfl
@[simp] theorem State.setProbe_notices (s : State) (p : Fin 192) (e : ProbeEntry) : (s.setProbe p e).notices = s.notices := rfl
@[simp] theorem State.setProbe_handler (s : State) (p : Fin 192) (e : ProbeEntry) : (s.setProbe p e).handler = s.handler := rfl

/-! ### `State.setZone` -/

@[simp] theorem State.setZone_pending (s : State) (z : Fin 8) (e : ZoneEntry) : (s.setZone z e).pending = s.pending := rfl
@[simp] theorem State.setZone_straps (s : State) (z : Fin 8) (e : ZoneEntry) : (s.setZone z e).straps = s.straps := rfl
@[simp] theorem State.setZone_params (s : State) (z : Fin 8) (e : ZoneEntry) : (s.setZone z e).params = s.params := rfl
@[simp] theorem State.setZone_uptime (s : State) (z : Fin 8) (e : ZoneEntry) : (s.setZone z e).uptime = s.uptime := rfl
@[simp] theorem State.setZone_field (s : State) (z : Fin 8) (e : ZoneEntry) : (s.setZone z e).field = s.field := rfl
@[simp] theorem State.setZone_drive (s : State) (z : Fin 8) (e : ZoneEntry) : (s.setZone z e).drive = s.drive := rfl
@[simp] theorem State.setZone_kiln (s : State) (z : Fin 8) (e : ZoneEntry) : (s.setZone z e).kiln = s.kiln := rfl
@[simp] theorem State.setZone_poller (s : State) (z : Fin 8) (e : ZoneEntry) : (s.setZone z e).poller = s.poller := rfl
@[simp] theorem State.setZone_probes (s : State) (z : Fin 8) (e : ZoneEntry) : (s.setZone z e).probes = s.probes := rfl
@[simp] theorem State.setZone_curves (s : State) (z : Fin 8) (e : ZoneEntry) : (s.setZone z e).curves = s.curves := rfl
@[simp] theorem State.setZone_estimator (s : State) (z : Fin 8) (e : ZoneEntry) : (s.setZone z e).estimator = s.estimator := rfl
@[simp] theorem State.setZone_sequencer (s : State) (z : Fin 8) (e : ZoneEntry) : (s.setZone z e).sequencer = s.sequencer := rfl
@[simp] theorem State.setZone_faults (s : State) (z : Fin 8) (e : ZoneEntry) : (s.setZone z e).faults = s.faults := rfl
@[simp] theorem State.setZone_notices (s : State) (z : Fin 8) (e : ZoneEntry) : (s.setZone z e).notices = s.notices := rfl
@[simp] theorem State.setZone_handler (s : State) (z : Fin 8) (e : ZoneEntry) : (s.setZone z e).handler = s.handler := rfl

/-! ### `State.setQueue` -/

@[simp] theorem State.setQueue_pending (s : State) (q : List QueuedFrame) : (s.setQueue q).pending = s.pending := rfl
@[simp] theorem State.setQueue_straps (s : State) (q : List QueuedFrame) : (s.setQueue q).straps = s.straps := rfl
@[simp] theorem State.setQueue_params (s : State) (q : List QueuedFrame) : (s.setQueue q).params = s.params := rfl
@[simp] theorem State.setQueue_uptime (s : State) (q : List QueuedFrame) : (s.setQueue q).uptime = s.uptime := rfl
@[simp] theorem State.setQueue_field (s : State) (q : List QueuedFrame) : (s.setQueue q).field = s.field := rfl
@[simp] theorem State.setQueue_drive (s : State) (q : List QueuedFrame) : (s.setQueue q).drive = s.drive := rfl
@[simp] theorem State.setQueue_kiln (s : State) (q : List QueuedFrame) : (s.setQueue q).kiln = s.kiln := rfl
@[simp] theorem State.setQueue_poller (s : State) (q : List QueuedFrame) : (s.setQueue q).poller = s.poller := rfl
@[simp] theorem State.setQueue_probes (s : State) (q : List QueuedFrame) : (s.setQueue q).probes = s.probes := rfl
@[simp] theorem State.setQueue_curves (s : State) (q : List QueuedFrame) : (s.setQueue q).curves = s.curves := rfl
@[simp] theorem State.setQueue_estimator (s : State) (q : List QueuedFrame) : (s.setQueue q).estimator = s.estimator := rfl
@[simp] theorem State.setQueue_sequencer (s : State) (q : List QueuedFrame) : (s.setQueue q).sequencer = s.sequencer := rfl
@[simp] theorem State.setQueue_faults (s : State) (q : List QueuedFrame) : (s.setQueue q).faults = s.faults := rfl
@[simp] theorem State.setQueue_notices (s : State) (q : List QueuedFrame) : (s.setQueue q).notices = s.notices := rfl
@[simp] theorem State.setQueue_handler (s : State) (q : List QueuedFrame) : (s.setQueue q).handler = s.handler := rfl

/-! ### `State.setExchange` -/

@[simp] theorem State.setExchange_pending (s : State) (x : Option DriveExchange) : (s.setExchange x).pending = s.pending := rfl
@[simp] theorem State.setExchange_straps (s : State) (x : Option DriveExchange) : (s.setExchange x).straps = s.straps := rfl
@[simp] theorem State.setExchange_params (s : State) (x : Option DriveExchange) : (s.setExchange x).params = s.params := rfl
@[simp] theorem State.setExchange_uptime (s : State) (x : Option DriveExchange) : (s.setExchange x).uptime = s.uptime := rfl
@[simp] theorem State.setExchange_field (s : State) (x : Option DriveExchange) : (s.setExchange x).field = s.field := rfl
@[simp] theorem State.setExchange_drive (s : State) (x : Option DriveExchange) : (s.setExchange x).drive = s.drive := rfl
@[simp] theorem State.setExchange_kiln (s : State) (x : Option DriveExchange) : (s.setExchange x).kiln = s.kiln := rfl
@[simp] theorem State.setExchange_poller (s : State) (x : Option DriveExchange) : (s.setExchange x).poller = s.poller := rfl
@[simp] theorem State.setExchange_probes (s : State) (x : Option DriveExchange) : (s.setExchange x).probes = s.probes := rfl
@[simp] theorem State.setExchange_curves (s : State) (x : Option DriveExchange) : (s.setExchange x).curves = s.curves := rfl
@[simp] theorem State.setExchange_estimator (s : State) (x : Option DriveExchange) : (s.setExchange x).estimator = s.estimator := rfl
@[simp] theorem State.setExchange_sequencer (s : State) (x : Option DriveExchange) : (s.setExchange x).sequencer = s.sequencer := rfl
@[simp] theorem State.setExchange_faults (s : State) (x : Option DriveExchange) : (s.setExchange x).faults = s.faults := rfl
@[simp] theorem State.setExchange_notices (s : State) (x : Option DriveExchange) : (s.setExchange x).notices = s.notices := rfl
@[simp] theorem State.setExchange_handler (s : State) (x : Option DriveExchange) : (s.setExchange x).handler = s.handler := rfl

/-! ### `State.setFault` -/

@[simp] theorem State.setFault_pending (s : State) (i : Fin 16) (r : Option FaultRecord) : (s.setFault i r).pending = s.pending := rfl
@[simp] theorem State.setFault_straps (s : State) (i : Fin 16) (r : Option FaultRecord) : (s.setFault i r).straps = s.straps := rfl
@[simp] theorem State.setFault_params (s : State) (i : Fin 16) (r : Option FaultRecord) : (s.setFault i r).params = s.params := rfl
@[simp] theorem State.setFault_uptime (s : State) (i : Fin 16) (r : Option FaultRecord) : (s.setFault i r).uptime = s.uptime := rfl
@[simp] theorem State.setFault_field (s : State) (i : Fin 16) (r : Option FaultRecord) : (s.setFault i r).field = s.field := rfl
@[simp] theorem State.setFault_drive (s : State) (i : Fin 16) (r : Option FaultRecord) : (s.setFault i r).drive = s.drive := rfl
@[simp] theorem State.setFault_kiln (s : State) (i : Fin 16) (r : Option FaultRecord) : (s.setFault i r).kiln = s.kiln := rfl
@[simp] theorem State.setFault_poller (s : State) (i : Fin 16) (r : Option FaultRecord) : (s.setFault i r).poller = s.poller := rfl
@[simp] theorem State.setFault_probes (s : State) (i : Fin 16) (r : Option FaultRecord) : (s.setFault i r).probes = s.probes := rfl
@[simp] theorem State.setFault_curves (s : State) (i : Fin 16) (r : Option FaultRecord) : (s.setFault i r).curves = s.curves := rfl
@[simp] theorem State.setFault_estimator (s : State) (i : Fin 16) (r : Option FaultRecord) : (s.setFault i r).estimator = s.estimator := rfl
@[simp] theorem State.setFault_sequencer (s : State) (i : Fin 16) (r : Option FaultRecord) : (s.setFault i r).sequencer = s.sequencer := rfl
@[simp] theorem State.setFault_zones (s : State) (i : Fin 16) (r : Option FaultRecord) : (s.setFault i r).zones = s.zones := rfl
@[simp] theorem State.setFault_notices (s : State) (i : Fin 16) (r : Option FaultRecord) : (s.setFault i r).notices = s.notices := rfl
@[simp] theorem State.setFault_handler (s : State) (i : Fin 16) (r : Option FaultRecord) : (s.setFault i r).handler = s.handler := rfl

/-! ### `State.setSequencer` -/

@[simp] theorem State.setSequencer_pending (s : State) (q : Sequencer) : (s.setSequencer q).pending = s.pending := rfl
@[simp] theorem State.setSequencer_straps (s : State) (q : Sequencer) : (s.setSequencer q).straps = s.straps := rfl
@[simp] theorem State.setSequencer_params (s : State) (q : Sequencer) : (s.setSequencer q).params = s.params := rfl
@[simp] theorem State.setSequencer_uptime (s : State) (q : Sequencer) : (s.setSequencer q).uptime = s.uptime := rfl
@[simp] theorem State.setSequencer_field (s : State) (q : Sequencer) : (s.setSequencer q).field = s.field := rfl
@[simp] theorem State.setSequencer_drive (s : State) (q : Sequencer) : (s.setSequencer q).drive = s.drive := rfl
@[simp] theorem State.setSequencer_kiln (s : State) (q : Sequencer) : (s.setSequencer q).kiln = s.kiln := rfl
@[simp] theorem State.setSequencer_poller (s : State) (q : Sequencer) : (s.setSequencer q).poller = s.poller := rfl
@[simp] theorem State.setSequencer_probes (s : State) (q : Sequencer) : (s.setSequencer q).probes = s.probes := rfl
@[simp] theorem State.setSequencer_curves (s : State) (q : Sequencer) : (s.setSequencer q).curves = s.curves := rfl
@[simp] theorem State.setSequencer_estimator (s : State) (q : Sequencer) : (s.setSequencer q).estimator = s.estimator := rfl
@[simp] theorem State.setSequencer_zones (s : State) (q : Sequencer) : (s.setSequencer q).zones = s.zones := rfl
@[simp] theorem State.setSequencer_faults (s : State) (q : Sequencer) : (s.setSequencer q).faults = s.faults := rfl
@[simp] theorem State.setSequencer_notices (s : State) (q : Sequencer) : (s.setSequencer q).notices = s.notices := rfl
@[simp] theorem State.setSequencer_handler (s : State) (q : Sequencer) : (s.setSequencer q).handler = s.handler := rfl

/-! ### `State.setStreak` -/

@[simp] theorem State.setStreak_pending (s : State) (n : Nat) : (s.setStreak n).pending = s.pending := rfl
@[simp] theorem State.setStreak_straps (s : State) (n : Nat) : (s.setStreak n).straps = s.straps := rfl
@[simp] theorem State.setStreak_params (s : State) (n : Nat) : (s.setStreak n).params = s.params := rfl
@[simp] theorem State.setStreak_uptime (s : State) (n : Nat) : (s.setStreak n).uptime = s.uptime := rfl
@[simp] theorem State.setStreak_field (s : State) (n : Nat) : (s.setStreak n).field = s.field := rfl
@[simp] theorem State.setStreak_drive (s : State) (n : Nat) : (s.setStreak n).drive = s.drive := rfl
@[simp] theorem State.setStreak_kiln (s : State) (n : Nat) : (s.setStreak n).kiln = s.kiln := rfl
@[simp] theorem State.setStreak_poller (s : State) (n : Nat) : (s.setStreak n).poller = s.poller := rfl
@[simp] theorem State.setStreak_probes (s : State) (n : Nat) : (s.setStreak n).probes = s.probes := rfl
@[simp] theorem State.setStreak_curves (s : State) (n : Nat) : (s.setStreak n).curves = s.curves := rfl
@[simp] theorem State.setStreak_estimator (s : State) (n : Nat) : (s.setStreak n).estimator = s.estimator := rfl
@[simp] theorem State.setStreak_zones (s : State) (n : Nat) : (s.setStreak n).zones = s.zones := rfl
@[simp] theorem State.setStreak_faults (s : State) (n : Nat) : (s.setStreak n).faults = s.faults := rfl
@[simp] theorem State.setStreak_notices (s : State) (n : Nat) : (s.setStreak n).notices = s.notices := rfl
@[simp] theorem State.setStreak_handler (s : State) (n : Nat) : (s.setStreak n).handler = s.handler := rfl

/-! ### `State.setFieldState` -/

@[simp] theorem State.setFieldState_pending (s : State) (l : LineState) : (s.setFieldState l).pending = s.pending := rfl
@[simp] theorem State.setFieldState_straps (s : State) (l : LineState) : (s.setFieldState l).straps = s.straps := rfl
@[simp] theorem State.setFieldState_params (s : State) (l : LineState) : (s.setFieldState l).params = s.params := rfl
@[simp] theorem State.setFieldState_uptime (s : State) (l : LineState) : (s.setFieldState l).uptime = s.uptime := rfl
@[simp] theorem State.setFieldState_drive (s : State) (l : LineState) : (s.setFieldState l).drive = s.drive := rfl
@[simp] theorem State.setFieldState_kiln (s : State) (l : LineState) : (s.setFieldState l).kiln = s.kiln := rfl
@[simp] theorem State.setFieldState_poller (s : State) (l : LineState) : (s.setFieldState l).poller = s.poller := rfl
@[simp] theorem State.setFieldState_probes (s : State) (l : LineState) : (s.setFieldState l).probes = s.probes := rfl
@[simp] theorem State.setFieldState_curves (s : State) (l : LineState) : (s.setFieldState l).curves = s.curves := rfl
@[simp] theorem State.setFieldState_estimator (s : State) (l : LineState) : (s.setFieldState l).estimator = s.estimator := rfl
@[simp] theorem State.setFieldState_sequencer (s : State) (l : LineState) : (s.setFieldState l).sequencer = s.sequencer := rfl
@[simp] theorem State.setFieldState_zones (s : State) (l : LineState) : (s.setFieldState l).zones = s.zones := rfl
@[simp] theorem State.setFieldState_faults (s : State) (l : LineState) : (s.setFieldState l).faults = s.faults := rfl
@[simp] theorem State.setFieldState_notices (s : State) (l : LineState) : (s.setFieldState l).notices = s.notices := rfl
@[simp] theorem State.setFieldState_handler (s : State) (l : LineState) : (s.setFieldState l).handler = s.handler := rfl

/-! ### `State.setHandler` -/

@[simp] theorem State.setHandler_pending (s : State) (h : Handler) : (s.setHandler h).pending = s.pending := rfl
@[simp] theorem State.setHandler_straps (s : State) (h : Handler) : (s.setHandler h).straps = s.straps := rfl
@[simp] theorem State.setHandler_params (s : State) (h : Handler) : (s.setHandler h).params = s.params := rfl
@[simp] theorem State.setHandler_uptime (s : State) (h : Handler) : (s.setHandler h).uptime = s.uptime := rfl
@[simp] theorem State.setHandler_field (s : State) (h : Handler) : (s.setHandler h).field = s.field := rfl
@[simp] theorem State.setHandler_drive (s : State) (h : Handler) : (s.setHandler h).drive = s.drive := rfl
@[simp] theorem State.setHandler_kiln (s : State) (h : Handler) : (s.setHandler h).kiln = s.kiln := rfl
@[simp] theorem State.setHandler_poller (s : State) (h : Handler) : (s.setHandler h).poller = s.poller := rfl
@[simp] theorem State.setHandler_probes (s : State) (h : Handler) : (s.setHandler h).probes = s.probes := rfl
@[simp] theorem State.setHandler_curves (s : State) (h : Handler) : (s.setHandler h).curves = s.curves := rfl
@[simp] theorem State.setHandler_estimator (s : State) (h : Handler) : (s.setHandler h).estimator = s.estimator := rfl
@[simp] theorem State.setHandler_sequencer (s : State) (h : Handler) : (s.setHandler h).sequencer = s.sequencer := rfl
@[simp] theorem State.setHandler_zones (s : State) (h : Handler) : (s.setHandler h).zones = s.zones := rfl
@[simp] theorem State.setHandler_faults (s : State) (h : Handler) : (s.setHandler h).faults = s.faults := rfl
@[simp] theorem State.setHandler_notices (s : State) (h : Handler) : (s.setHandler h).notices = s.notices := rfl

/-! ### `State.setUnit` -/

@[simp] theorem State.setUnit_pending (s : State) (l : PairLine) (u : PairUnit) : (s.setUnit l u).pending = s.pending := by cases l <;> rfl
@[simp] theorem State.setUnit_straps (s : State) (l : PairLine) (u : PairUnit) : (s.setUnit l u).straps = s.straps := by cases l <;> rfl
@[simp] theorem State.setUnit_params (s : State) (l : PairLine) (u : PairUnit) : (s.setUnit l u).params = s.params := by cases l <;> rfl
@[simp] theorem State.setUnit_uptime (s : State) (l : PairLine) (u : PairUnit) : (s.setUnit l u).uptime = s.uptime := by cases l <;> rfl
@[simp] theorem State.setUnit_kiln (s : State) (l : PairLine) (u : PairUnit) : (s.setUnit l u).kiln = s.kiln := by cases l <;> rfl
@[simp] theorem State.setUnit_poller (s : State) (l : PairLine) (u : PairUnit) : (s.setUnit l u).poller = s.poller := by cases l <;> rfl
@[simp] theorem State.setUnit_probes (s : State) (l : PairLine) (u : PairUnit) : (s.setUnit l u).probes = s.probes := by cases l <;> rfl
@[simp] theorem State.setUnit_curves (s : State) (l : PairLine) (u : PairUnit) : (s.setUnit l u).curves = s.curves := by cases l <;> rfl
@[simp] theorem State.setUnit_estimator (s : State) (l : PairLine) (u : PairUnit) : (s.setUnit l u).estimator = s.estimator := by cases l <;> rfl
@[simp] theorem State.setUnit_sequencer (s : State) (l : PairLine) (u : PairUnit) : (s.setUnit l u).sequencer = s.sequencer := by cases l <;> rfl
@[simp] theorem State.setUnit_zones (s : State) (l : PairLine) (u : PairUnit) : (s.setUnit l u).zones = s.zones := by cases l <;> rfl
@[simp] theorem State.setUnit_faults (s : State) (l : PairLine) (u : PairUnit) : (s.setUnit l u).faults = s.faults := by cases l <;> rfl
@[simp] theorem State.setUnit_notices (s : State) (l : PairLine) (u : PairUnit) : (s.setUnit l u).notices = s.notices := by cases l <;> rfl
@[simp] theorem State.setUnit_handler (s : State) (l : PairLine) (u : PairUnit) : (s.setUnit l u).handler = s.handler := by cases l <;> rfl

/-! ### `State.setAssembler` -/

@[simp] theorem State.setAssembler_pending (s : State) (l : Line) (a : Assembler) : (s.setAssembler l a).pending = s.pending := by cases l <;> rfl
@[simp] theorem State.setAssembler_straps (s : State) (l : Line) (a : Assembler) : (s.setAssembler l a).straps = s.straps := by cases l <;> rfl
@[simp] theorem State.setAssembler_params (s : State) (l : Line) (a : Assembler) : (s.setAssembler l a).params = s.params := by cases l <;> rfl
@[simp] theorem State.setAssembler_uptime (s : State) (l : Line) (a : Assembler) : (s.setAssembler l a).uptime = s.uptime := by cases l <;> rfl
@[simp] theorem State.setAssembler_poller (s : State) (l : Line) (a : Assembler) : (s.setAssembler l a).poller = s.poller := by cases l <;> rfl
@[simp] theorem State.setAssembler_probes (s : State) (l : Line) (a : Assembler) : (s.setAssembler l a).probes = s.probes := by cases l <;> rfl
@[simp] theorem State.setAssembler_curves (s : State) (l : Line) (a : Assembler) : (s.setAssembler l a).curves = s.curves := by cases l <;> rfl
@[simp] theorem State.setAssembler_estimator (s : State) (l : Line) (a : Assembler) : (s.setAssembler l a).estimator = s.estimator := by cases l <;> rfl
@[simp] theorem State.setAssembler_sequencer (s : State) (l : Line) (a : Assembler) : (s.setAssembler l a).sequencer = s.sequencer := by cases l <;> rfl
@[simp] theorem State.setAssembler_zones (s : State) (l : Line) (a : Assembler) : (s.setAssembler l a).zones = s.zones := by cases l <;> rfl
@[simp] theorem State.setAssembler_faults (s : State) (l : Line) (a : Assembler) : (s.setAssembler l a).faults = s.faults := by cases l <;> rfl
@[simp] theorem State.setAssembler_notices (s : State) (l : Line) (a : Assembler) : (s.setAssembler l a).notices = s.notices := by cases l <;> rfl
@[simp] theorem State.setAssembler_handler (s : State) (l : Line) (a : Assembler) : (s.setAssembler l a).handler = s.handler := by cases l <;> rfl

/-! ### `State.setDiscard` -/

@[simp] theorem State.setDiscard_pending (s : State) (l : Line) (r : DiscardReason) : (s.setDiscard l r).pending = s.pending := by cases l <;> rfl
@[simp] theorem State.setDiscard_straps (s : State) (l : Line) (r : DiscardReason) : (s.setDiscard l r).straps = s.straps := by cases l <;> rfl
@[simp] theorem State.setDiscard_params (s : State) (l : Line) (r : DiscardReason) : (s.setDiscard l r).params = s.params := by cases l <;> rfl
@[simp] theorem State.setDiscard_uptime (s : State) (l : Line) (r : DiscardReason) : (s.setDiscard l r).uptime = s.uptime := by cases l <;> rfl
@[simp] theorem State.setDiscard_poller (s : State) (l : Line) (r : DiscardReason) : (s.setDiscard l r).poller = s.poller := by cases l <;> rfl
@[simp] theorem State.setDiscard_probes (s : State) (l : Line) (r : DiscardReason) : (s.setDiscard l r).probes = s.probes := by cases l <;> rfl
@[simp] theorem State.setDiscard_curves (s : State) (l : Line) (r : DiscardReason) : (s.setDiscard l r).curves = s.curves := by cases l <;> rfl
@[simp] theorem State.setDiscard_estimator (s : State) (l : Line) (r : DiscardReason) : (s.setDiscard l r).estimator = s.estimator := by cases l <;> rfl
@[simp] theorem State.setDiscard_sequencer (s : State) (l : Line) (r : DiscardReason) : (s.setDiscard l r).sequencer = s.sequencer := by cases l <;> rfl
@[simp] theorem State.setDiscard_zones (s : State) (l : Line) (r : DiscardReason) : (s.setDiscard l r).zones = s.zones := by cases l <;> rfl
@[simp] theorem State.setDiscard_faults (s : State) (l : Line) (r : DiscardReason) : (s.setDiscard l r).faults = s.faults := by cases l <;> rfl
@[simp] theorem State.setDiscard_notices (s : State) (l : Line) (r : DiscardReason) : (s.setDiscard l r).notices = s.notices := by cases l <;> rfl
@[simp] theorem State.setDiscard_handler (s : State) (l : Line) (r : DiscardReason) : (s.setDiscard l r).handler = s.handler := by cases l <;> rfl

/-! ### `State.afterChar` -/

@[simp] theorem State.afterChar_pending (s : State) (l : Line) (c : RxChar) : (s.afterChar l c).pending = s.pending := by cases l <;> rfl
@[simp] theorem State.afterChar_straps (s : State) (l : Line) (c : RxChar) : (s.afterChar l c).straps = s.straps := by cases l <;> rfl
@[simp] theorem State.afterChar_params (s : State) (l : Line) (c : RxChar) : (s.afterChar l c).params = s.params := by cases l <;> rfl
@[simp] theorem State.afterChar_uptime (s : State) (l : Line) (c : RxChar) : (s.afterChar l c).uptime = s.uptime := by cases l <;> rfl
@[simp] theorem State.afterChar_poller (s : State) (l : Line) (c : RxChar) : (s.afterChar l c).poller = s.poller := by cases l <;> rfl
@[simp] theorem State.afterChar_probes (s : State) (l : Line) (c : RxChar) : (s.afterChar l c).probes = s.probes := by cases l <;> rfl
@[simp] theorem State.afterChar_curves (s : State) (l : Line) (c : RxChar) : (s.afterChar l c).curves = s.curves := by cases l <;> rfl
@[simp] theorem State.afterChar_estimator (s : State) (l : Line) (c : RxChar) : (s.afterChar l c).estimator = s.estimator := by cases l <;> rfl
@[simp] theorem State.afterChar_sequencer (s : State) (l : Line) (c : RxChar) : (s.afterChar l c).sequencer = s.sequencer := by cases l <;> rfl
@[simp] theorem State.afterChar_zones (s : State) (l : Line) (c : RxChar) : (s.afterChar l c).zones = s.zones := by cases l <;> rfl
@[simp] theorem State.afterChar_faults (s : State) (l : Line) (c : RxChar) : (s.afterChar l c).faults = s.faults := by cases l <;> rfl
@[simp] theorem State.afterChar_notices (s : State) (l : Line) (c : RxChar) : (s.afterChar l c).notices = s.notices := by cases l <;> rfl
@[simp] theorem State.afterChar_slot1 (s : State) (l : Line) (c : RxChar) : (s.afterChar l c).handler.slot1 = s.handler.slot1 := by cases l <;> rfl
@[simp] theorem State.afterChar_intake (s : State) (l : Line) (c : RxChar) : (s.afterChar l c).handler.intake = s.handler.intake := by cases l <;> rfl
@[simp] theorem State.afterChar_replyPlace (s : State) (l : Line) (c : RxChar) : (s.afterChar l c).handler.replyPlace = s.handler.replyPlace := by cases l <;> rfl
@[simp] theorem State.afterChar_klRdy (s : State) (l : Line) (c : RxChar) : (s.afterChar l c).handler.klRdy = s.handler.klRdy := by cases l <;> rfl
@[simp] theorem State.afterChar_pair_handler (s : State) (l : PairLine) (c : RxChar) : (s.afterChar (lineOf l) c).handler = s.handler := by cases l <;> rfl

/-! ### What an update puts in place -/

@[simp] theorem State.setSequencer_sequencer (s : State) (q : Sequencer) : (s.setSequencer q).sequencer = q := rfl
@[simp] theorem State.setHandler_handler (s : State) (h : Handler) : (s.setHandler h).handler = h := rfl
@[simp] theorem State.setQueue_queue (s : State) (q : List QueuedFrame) : (s.setQueue q).zones.queue = q := rfl
@[simp] theorem State.setQueue_exchange (s : State) (q : List QueuedFrame) :
    (s.setQueue q).zones.exchange = s.zones.exchange := rfl
@[simp] theorem State.setQueue_table (s : State) (q : List QueuedFrame) : (s.setQueue q).zones.table = s.zones.table := rfl
@[simp] theorem State.setExchange_exchange (s : State) (x : Option DriveExchange) :
    (s.setExchange x).zones.exchange = x := rfl
@[simp] theorem State.setExchange_queue (s : State) (x : Option DriveExchange) :
    (s.setExchange x).zones.queue = s.zones.queue := rfl
@[simp] theorem State.setExchange_table (s : State) (x : Option DriveExchange) :
    (s.setExchange x).zones.table = s.zones.table := rfl
@[simp] theorem State.setZone_queue (s : State) (z : Fin 8) (e : ZoneEntry) :
    (s.setZone z e).zones.queue = s.zones.queue := rfl
@[simp] theorem State.setZone_exchange (s : State) (z : Fin 8) (e : ZoneEntry) :
    (s.setZone z e).zones.exchange = s.zones.exchange := rfl
@[simp] theorem State.setZone_envelope (s : State) (z : Fin 8) (e : ZoneEntry) :
    (s.setZone z e).zones.envelope = s.zones.envelope := rfl
@[simp] theorem State.setFault_overflow (s : State) (i : Fin 16) (r : Option FaultRecord) :
    (s.setFault i r).faults.overflow = s.faults.overflow := rfl
@[simp] theorem State.setStaging_staging (s : State) (x : Option Staging) : (s.setStaging x).poller.staging = x := rfl
@[simp] theorem State.setStreak_state (s : State) (n : Nat) : (s.setStreak n).sequencer.state = s.sequencer.state := rfl
@[simp] theorem State.setStreak_causes (s : State) (n : Nat) : (s.setStreak n).sequencer.causes = s.sequencer.causes := rfl

/-- A table entry read after it is written. -/
@[simp] theorem State.zone_setZone (s : State) (z : Fin 8) (e : ZoneEntry) : (s.setZone z e).zone z = e := by
  simp [State.zone, State.setZone]

/-- A table entry read after another is written. -/
theorem State.zone_setZone_ne (s : State) (z y : Fin 8) (e : ZoneEntry) (h : z ≠ y) :
    (s.setZone z e).zone y = s.zone y := by
  have : z.val ≠ y.val := fun h' => h (Fin.ext h')
  simp [State.zone, State.setZone, this]

@[simp] theorem State.node_setNode (s : State) (n : Fin 16) (e : NodeEntry) : (s.setNode n e).node n = e := by
  simp [State.node, State.setNode]

theorem State.node_setNode_ne (s : State) (n m : Fin 16) (e : NodeEntry) (h : n ≠ m) :
    (s.setNode n e).node m = s.node m := by
  have : n.val ≠ m.val := fun h' => h (Fin.ext h')
  simp [State.node, State.setNode, this]

@[simp] theorem State.probe_setProbe (s : State) (p : Fin 192) (e : ProbeEntry) : (s.setProbe p e).probe p = e := by
  simp [State.probe, State.setProbe]

theorem State.probe_setProbe_ne (s : State) (p q : Fin 192) (e : ProbeEntry) (h : p ≠ q) :
    (s.setProbe p e).probe q = s.probe q := by
  have : p.val ≠ q.val := fun h' => h (Fin.ext h')
  simp [State.probe, State.setProbe, this]

@[simp] theorem State.unit_setUnit (s : State) (l : PairLine) (u : PairUnit) : (s.setUnit l u).unit l = u := by
  cases l <;> rfl

@[simp] theorem State.assemblerOf_setAssembler (s : State) (l : Line) (a : Assembler) :
    (s.setAssembler l a).assemblerOf l = a := by cases l <;> rfl

/-! ### Derived reads -/

@[simp] theorem State.param_setSequencer (s : State) (q : Sequencer) (p : Param) :
    (s.setSequencer q).param p = s.param p := rfl
@[simp] theorem State.zone_setSequencer (s : State) (q : Sequencer) (z : Fin 8) :
    (s.setSequencer q).zone z = s.zone z := rfl
@[simp] theorem State.zone_setQueue (s : State) (q : List QueuedFrame) (z : Fin 8) :
    (s.setQueue q).zone z = s.zone z := rfl
@[simp] theorem State.zone_setExchange (s : State) (x : Option DriveExchange) (z : Fin 8) :
    (s.setExchange x).zone z = s.zone z := rfl

end Sys2Proof.Machine
end

