-- ==== Sys2Proof/Laws/Frames.lean ====
section
/-! SUPPORT. What the shared operations leave alone: a notice, a fault, a frame build and a report to the Zone Controller
change nothing outside the parts named here. -/

namespace Sys2Proof.Laws

open Sys2Proof.Machine

/-- `t` is `s` with other zones, another transmit slot of the Drive unit and other notices. -/
def ZonesOnly (s t : State) : Prop :=
  ∃ z d n, t = { s with zones := z, drive := { s.drive with slot := d }, notices := n }

/-- `t` is `s` with other fault records and other notices. -/
def FaultsOnly (s t : State) : Prop := ∃ f n, t = { s with faults := f, notices := n }

namespace ZonesOnly

theorem refl (s : State) : ZonesOnly s s := ⟨_, _, _, rfl⟩

theorem trans {s t u : State} (h : ZonesOnly s t) (k : ZonesOnly t u) : ZonesOnly s u := by
  obtain ⟨_, _, _, rfl⟩ := h
  obtain ⟨_, _, _, rfl⟩ := k
  exact ⟨_, _, _, rfl⟩

/-- A fold of operations on the zones. -/
theorem foldl {α : Type} {f : State → α → State} (h : ∀ s a, ZonesOnly s (f s a)) (l : List α) (s : State) :
    ZonesOnly s (l.foldl f s) := by
  induction l generalizing s with
  | nil => exact refl s
  | cons a l ih => exact (h s a).trans (ih _)

end ZonesOnly

theorem zonesOnly_raiseNotice (k : NoticeKind) (n : Nat) (a b : Option Nat) (s : State) :
    ZonesOnly s (raiseNotice k n a b s) := ⟨_, s.drive.slot, _, rfl⟩

theorem zonesOnly_openExchange (s : State) : ZonesOnly s (openExchange s) := by
  unfold openExchange
  split
  · next q rest _ _ =>
    split
    · unfold PairUnit.take
      split
      · exact ⟨_, s.drive.slot, s.notices, rfl⟩
      · exact ⟨_, _, s.notices, rfl⟩
    · exact ZonesOnly.refl s
  · exact ZonesOnly.refl s

theorem zonesOnly_enqueueFrame (q : QueuedFrame) (s : State) : ZonesOnly s (enqueueFrame q s) :=
  (zonesOnly_openExchange s).trans
    (ZonesOnly.trans ⟨_, _, _, rfl⟩ (zonesOnly_openExchange _))

theorem zonesOnly_buildFrame (z : Fin 8) (c : FrameContent) (s : State) : ZonesOnly s (buildFrame z c s) := by
  unfold buildFrame
  refine ZonesOnly.trans ?_ (zonesOnly_enqueueFrame _ _)
  unfold clampNotice
  split
  · exact ZonesOnly.trans ⟨_, _, _, rfl⟩ (zonesOnly_raiseNotice _ _ _ _ _)
  · exact ⟨_, s.drive.slot, s.notices, rfl⟩

theorem zonesOnly_tellZones (s : State) : ZonesOnly s (tellZones s) :=
  ZonesOnly.foldl (fun s z => by
    unfold autoBuild
    split
    · exact zonesOnly_buildFrame _ _ _
    · exact ZonesOnly.refl s) _ s

theorem zonesOnly_scheduleNotice (s : State) : ZonesOnly s (scheduleNotice s) := zonesOnly_raiseNotice _ _ _ _ _

theorem zonesOnly_drivePeriod (s : State) : ZonesOnly s (drivePeriod s) := by
  refine ZonesOnly.trans (ZonesOnly.trans ⟨_, s.drive.slot, s.notices, rfl⟩ (zonesOnly_openExchange _))
    (ZonesOnly.foldl (fun s z => ?_) _ _)
  unfold periodBuild
  split
  · exact zonesOnly_buildFrame _ _ _
  · exact zonesOnly_buildFrame _ _ _
  · exact ZonesOnly.refl s

theorem zonesOnly_abandonExchange (s : State) : ZonesOnly s (abandonExchange s) := by
  unfold abandonExchange
  split
  · exact ZonesOnly.refl s
  · split <;> exact ⟨_, s.drive.slot, s.notices, rfl⟩

theorem faultsOnly_raiseFault (src : FaultSource) (why : FaultReason) (d : Option Int) (s : State) :
    FaultsOnly s (raiseFault src why d s) := by
  unfold raiseFault
  split
  · exact ⟨_, s.notices, rfl⟩
  · unfold recordFault
    split
    · exact ⟨_, _, rfl⟩
    · unfold loseFault
      split
      · exact ⟨_, _, rfl⟩
      · exact ⟨_, _, rfl⟩

/-- A build writes its own zone's entry alone. -/
theorem zone_openExchange (s : State) (z : Fin 8) : (openExchange s).zone z = s.zone z := by
  unfold openExchange; split
  · split <;> rfl
  · rfl

theorem zone_enqueueFrame (q : QueuedFrame) (s : State) (z : Fin 8) : (enqueueFrame q s).zone z = s.zone z := by
  simp only [enqueueFrame, zone_openExchange]
  exact zone_openExchange s z

theorem zone_clampNotice (y : Fin 8) (f : SetpointFrame) (b : Bool) (s : State) (z : Fin 8) :
    (clampNotice y f b s).zone z = s.zone z := by
  unfold clampNotice; split <;> rfl

/-- R127: the entry of a zone after its build. -/
theorem zone_buildFrame (z : Fin 8) (c : FrameContent) (s : State) :
    (buildFrame z c s).zone z =
      { s.zone z with lastBuilt := builtFrame s z c, nextTag := (s.zone z).nextTag + 1
                      clampedLast := (builtFrame s z c).marks.any } := by
  simp only [buildFrame, zone_enqueueFrame, zone_clampNotice, State.zone_setZone]

theorem zone_buildFrame_ne (y z : Fin 8) (c : FrameContent) (s : State) (h : y ≠ z) :
    (buildFrame y c s).zone z = s.zone z := by
  simp only [buildFrame, zone_enqueueFrame, zone_clampNotice]
  exact State.zone_setZone_ne s y z _ h

end Sys2Proof.Laws
end

