-- ==== Sys2Proof/Laws/Framing.lean ====
section
/-! SUPPORT. Characters sent and received, and runs of characters through an assembler (R1, R2, R8 to
R10), and what a BREAK character comes to (R163). -/

namespace Sys2Proof.Laws

open Sys2Proof.Machine
open Sys2Proof.Safety

/-- Every bit of a byte made of bits. -/
theorem byteOfBits_bit (f : Nat → Bool) (k : Nat) (hk : k < 8) : (byteOfBits f).getLsbD k = f k := by
  unfold byteOfBits
  simp only [List.range, List.range.loop, List.foldl]
  have key : ∀ b0 b1 b2 b3 b4 b5 b6 b7 : Bool, ∀ k : Fin 8,
      BitVec.getLsbD
        (let x0 := if b0 then 0#8 ||| 1#8 <<< 0 else 0#8
         let x1 := if b1 then x0 ||| 1#8 <<< 1 else x0
         let x2 := if b2 then x1 ||| 1#8 <<< 2 else x1
         let x3 := if b3 then x2 ||| 1#8 <<< 3 else x2
         let x4 := if b4 then x3 ||| 1#8 <<< 4 else x3
         let x5 := if b5 then x4 ||| 1#8 <<< 5 else x4
         let x6 := if b6 then x5 ||| 1#8 <<< 6 else x5
         if b7 then x6 ||| 1#8 <<< 7 else x6) k = [b0, b1, b2, b3, b4, b5, b6, b7][k] := by
    decide +kernel
  have h := key (f 0) (f 1) (f 2) (f 3) (f 4) (f 5) (f 6) (f 7) ⟨k, hk⟩
  simp only at h
  rw [h]
  rcases k with _ | _ | _ | _ | _ | _ | _ | _ | k <;> first | rfl | omega

/-- R1, R2: a character that arrives as it was sent carries its data and mark and no tag. -/
theorem receive_clean : ∀ (d : Byte) (m : Bool), receive (cleanSamples (transmitChar d m)) =
    some { data := d, mark := m, noise := false, parity := false, framing := false, brk := false } := by
  decide +kernel

/-- A run of characters in two parts. -/
theorem runAssembler_append (a : Assembler) (xs ys : List RxChar) :
    runAssembler a (xs ++ ys) = ((runAssembler (runAssembler a xs).1 ys).1,
      (runAssembler a xs).2 ++ (runAssembler (runAssembler a xs).1 ys).2) := by
  induction xs generalizing a with
  | nil => rfl
  | cons x xs ih => simp only [List.cons_append, runAssembler, ih]

/-! ### A BREAK character (R3, R16, R163) -/

/-- A BREAK character of a pair is received like any other. -/
theorem receiveBreak_pair (p : PairLine) (s : State) : receiveBreak (.pair p) s = receiveCharacter (lineOf p) breakChar s :=
  rfl

/-- A BREAK character of the Kiln Line is received like any other, or, taken before the admission of the frame completed
just before it, followed by that admission. -/
theorem receiveBreak_kiln (order : BreakOrder) (s : State) :
    receiveBreak (.kiln order) s = receiveCharacter .kiln breakChar s ∨
    ∃ c, order = .breakFirst ∧ s.handler.completed = some c ∧ s.listens .kiln = true ∧
      receiveBreak (.kiln order) s = admitAfterBreak c (receiveCharacter .kiln breakChar s) := by
  rcases order with _ | _ <;> rcases h : s.handler.completed with _ | c <;> simp only [receiveBreak, h, true_or]
  by_cases hl : s.listens .kiln = true
  · exact .inr ⟨c, trivial, rfl, hl, if_pos hl⟩
  · exact .inl ((if_neg hl).trans (if_neg hl).symm)

/-- A frame admitted into the emptied queue stands alone in it, and the discard reason before it stands again. -/
theorem admitAfterBreak_empty (c : CompletedFrame) (s : State) (h : s.handler.intake = []) :
    admitAfterBreak c s = { s with
      kiln := { s.kiln with lastDiscard := c.discardBefore }, handler := { s.handler with intake := [c.frame] } } := by
  simp [admitAfterBreak, admitFrame, h, Handler.admitted, State.setHandler, Config.intakeCapacity, Config.intakeHigh]

end Sys2Proof.Laws
end

