-- ==== Sys2Proof/Laws/Layout.lean ====
section
/-! SUPPORT. The bytes of each field type (section 11.6, R167), and what reading them back by offset gives. -/

namespace Sys2Proof.Laws

open Sys2Proof.Machine
open Sys2Proof.Safety

theorem u16_halves (w : Word16) : u16 (highByte w) (lowByte w) = w.toNat := by
  have h := w.isLt
  simp only [u16, highByte, lowByte, BitVec.extractLsb'_toNat, Nat.shiftRight_eq_div_pow]
  omega

theorem s16_halves (w : Word16) : s16 (highByte w) (lowByte w) = w.toInt := by
  simp [s16, u16_halves]

theorem b1_holds (n : Nat) : ∃ a, b1 n = [a] ∧ ∀ p k, byteAt p k = a → Holds1 p k (some n) :=
  ⟨_, rfl, fun p k h => by simp [Holds1, h]⟩

theorem opt1_holds (x : Option Nat) : ∃ a, opt1 x = [a] ∧ ∀ p k, byteAt p k = a → Holds1 p k x := by
  cases x with
  | none => exact ⟨_, rfl, fun p k h => h⟩
  | some n => exact b1_holds n

theorem w2_holds (w : Word16) : ∃ a b, w2 w = [a, b] ∧ ∀ p k, byteAt p k = a → byteAt p (k + 1) = b →
    Holds2 p k (some w.toNat) ∧ byteAt p k ++ byteAt p (k + 1) = w := by
  refine ⟨_, _, rfl, fun p k h1 h2 => ⟨?_, ?_⟩⟩
  · have := w.isLt
    simp only [Holds2, u16At, h1, h2, u16_halves]
    omega
  · rw [h1, h2]
    ext i hi
    simp only [highByte, lowByte, BitVec.getElem_append, BitVec.getElem_extractLsb']
    split
    · simp [BitVec.getLsbD_eq_getElem hi]
    · rw [show 8 + (i - 8) = i by omega, BitVec.getLsbD_eq_getElem hi]

theorem b2_holds (n : Nat) : ∃ a b, b2 n = [a, b] ∧ ∀ p k, byteAt p k = a → byteAt p (k + 1) = b →
    Holds2 p k (some n) := by
  obtain ⟨a, b, h1, h2⟩ := w2_holds (BitVec.ofNat 16 n)
  refine ⟨a, b, h1, fun p k ha hb => ?_⟩
  have := (h2 p k ha hb).1
  simpa [Holds2] using this

theorem opt2_holds (x : Option Nat) : ∃ a b, opt2 x = [a, b] ∧ ∀ p k, byteAt p k = a → byteAt p (k + 1) = b →
    Holds2 p k x := by
  cases x with
  | none => exact ⟨_, _, rfl, fun p k h1 h2 => ⟨h1, h2⟩⟩
  | some n => exact b2_holds n

theorem optWord_holds (x : Option Word16) : ∃ a b, optWord x = [a, b] ∧ ∀ p k, byteAt p k = a → byteAt p (k + 1) = b →
    Holds2 p k (x.map (·.toNat)) := by
  cases x with
  | none => exact ⟨_, _, rfl, fun p k h1 h2 => ⟨h1, h2⟩⟩
  | some w =>
    obtain ⟨a, b, h1, h2⟩ := w2_holds w
    exact ⟨a, b, h1, fun p k ha hb => (h2 p k ha hb).1⟩

theorem b3_holds (n : Nat) : ∃ a b c, b3 n = [a, b, c] ∧ ∀ p k, byteAt p k = a → byteAt p (k + 1) = b →
    byteAt p (k + 2) = c → Holds3 p k (some n) := by
  refine ⟨_, _, _, rfl, fun p k h1 h2 h3 => ?_⟩
  simp only [Holds3, u16At, u16, h1, h2, h3, Nat.add_assoc, BitVec.toNat_ofNat]
  omega

theorem opt3_holds (x : Option Nat) : ∃ a b c, opt3 x = [a, b, c] ∧ ∀ p k, byteAt p k = a → byteAt p (k + 1) = b →
    byteAt p (k + 2) = c → Holds3 p k x := by
  cases x with
  | none => exact ⟨_, _, _, rfl, fun p k h1 h2 h3 => ⟨h1, h2, h3⟩⟩
  | some n => exact b3_holds n

theorem i2_holds (x : Int) : ∃ a b, i2 x = [a, b] ∧ ∀ p k, byteAt p k = a → byteAt p (k + 1) = b →
    HoldsTemp p k (some x) := by
  refine ⟨_, _, rfl, fun p k h1 h2 l u => ?_⟩
  simp only [s16At, h1, h2, s16_halves, signed16, if_pos (And.intro l u), BitVec.toInt_ofInt]
  exact Int.bmod_eq_of_le (by omega) (by omega)

theorem optTemp_holds (x : Option Int) : ∃ a b, optTemp x = [a, b] ∧ ∀ p k, byteAt p k = a → byteAt p (k + 1) = b →
    HoldsTemp p k x := by
  cases x with
  | none => exact ⟨_, _, rfl, fun p k h1 h2 => ⟨h1, h2⟩⟩
  | some x => exact i2_holds x

end Sys2Proof.Laws
end

