-- ==== Sys2Proof/Laws/PerInstr.lean ====
section
/-! SUPPORT. The family `KindCode`: the kind code of a request and the request of a kind code agree (section 11.2), one
lemma per command. -/

namespace Sys2Proof.Laws

open Sys2Proof.Machine

/-- Section 11.2: a command's kind code, where it has one, stands for that command. -/
def KindCode.Statement (i : Instr) : Prop := ∀ k, kindOfRequest i = some k → requestOfKind k = some i

/-- The statement from the command's own kind code. -/
theorem kindCode_of_code {i : Instr} {c : Byte} (h : kindOfRequest i = some c) (h' : requestOfKind c = some i) :
    KindCode.Statement i := fun _ hk => Option.some.inj (h.symm.trans hk) ▸ h'

/-- The statement of a command without a kind code. -/
theorem kindCode_of_none {i : Instr} (h : kindOfRequest i = none) : KindCode.Statement i :=
  fun _ hk => absurd (h.symm.trans hk) nofun

theorem KindCode.powerUp (straps : Straps) (levels : PairLevels) : KindCode.Statement (.powerUp straps levels) :=
  kindCode_of_none rfl
theorem KindCode.characterReceived (line : Line) (samples : Samples) : KindCode.Statement (.characterReceived line samples) :=
  kindCode_of_none rfl
theorem KindCode.breakCharacter (line : BreakLine) : KindCode.Statement (.breakCharacter line) :=
  kindCode_of_none rfl
theorem KindCode.spacingSpellStart (line : PairLine) : KindCode.Statement (.spacingSpellStart line) :=
  kindCode_of_none rfl
theorem KindCode.spacingSpellEnd (line : PairLine) : KindCode.Statement (.spacingSpellEnd line) := kindCode_of_none rfl
theorem KindCode.gapLimitExpiry (line : Line) : KindCode.Statement (.gapLimitExpiry line) := kindCode_of_none rfl
theorem KindCode.stuckLimitExpiry (line : PairLine) (order : FaultOrder) : KindCode.Statement (.stuckLimitExpiry line order) :=
  kindCode_of_none rfl
theorem KindCode.transmitStart (line : PairLine) : KindCode.Statement (.transmitStart line) := kindCode_of_none rfl
theorem KindCode.transmitEnd (line : PairLine) : KindCode.Statement (.transmitEnd line) := kindCode_of_none rfl
theorem KindCode.replyTransmitEnd : KindCode.Statement .replyTransmitEnd := kindCode_of_none rfl
theorem KindCode.replyHandover : KindCode.Statement .replyHandover := kindCode_of_none rfl
theorem KindCode.cycleTimerExpiry : KindCode.Statement .cycleTimerExpiry := kindCode_of_none rfl
theorem KindCode.scanAnswerTimeout : KindCode.Statement .scanAnswerTimeout := kindCode_of_none rfl
theorem KindCode.drivePeriodExpiry : KindCode.Statement .drivePeriodExpiry := kindCode_of_none rfl
theorem KindCode.driveAnswerTimeout : KindCode.Statement .driveAnswerTimeout := kindCode_of_none rfl
theorem KindCode.minuteTick : KindCode.Statement .minuteTick := kindCode_of_none rfl
theorem KindCode.stepLimit : KindCode.Statement .stepLimit := kindCode_of_none rfl
theorem KindCode.fanReversal : KindCode.Statement .fanReversal := kindCode_of_none rfl
theorem KindCode.identify : KindCode.Statement .identify := kindCode_of_code rfl rfl
theorem KindCode.readLineStatus : KindCode.Statement .readLineStatus := kindCode_of_code rfl rfl
theorem KindCode.setConfig : KindCode.Statement .setConfig := kindCode_of_code rfl rfl
theorem KindCode.readConfig : KindCode.Statement .readConfig := kindCode_of_code rfl rfl
theorem KindCode.setAddressSlot : KindCode.Statement .setAddressSlot := kindCode_of_code rfl rfl
theorem KindCode.lineRestart : KindCode.Statement .lineRestart := kindCode_of_code rfl rfl
theorem KindCode.loadCurve : KindCode.Statement .loadCurve := kindCode_of_code rfl rfl
theorem KindCode.readCurve : KindCode.Statement .readCurve := kindCode_of_code rfl rfl
theorem KindCode.mapProbe : KindCode.Statement .mapProbe := kindCode_of_code rfl rfl
theorem KindCode.unmapProbes : KindCode.Statement .unmapProbes := kindCode_of_code rfl rfl
theorem KindCode.excludeProbes : KindCode.Statement .excludeProbes := kindCode_of_code rfl rfl
theorem KindCode.includeProbes : KindCode.Statement .includeProbes := kindCode_of_code rfl rfl
theorem KindCode.readProbe : KindCode.Statement .readProbe := kindCode_of_code rfl rfl
theorem KindCode.readNode : KindCode.Statement .readNode := kindCode_of_code rfl rfl
theorem KindCode.fieldStart : KindCode.Statement .fieldStart := kindCode_of_code rfl rfl
theorem KindCode.fieldHalt : KindCode.Statement .fieldHalt := kindCode_of_code rfl rfl
theorem KindCode.readEstimate : KindCode.Statement .readEstimate := kindCode_of_code rfl rfl
theorem KindCode.readRanking : KindCode.Statement .readRanking := kindCode_of_code rfl rfl
theorem KindCode.loadStep : KindCode.Statement .loadStep := kindCode_of_code rfl rfl
theorem KindCode.readStep : KindCode.Statement .readStep := kindCode_of_code rfl rfl
theorem KindCode.setStepCount : KindCode.Statement .setStepCount := kindCode_of_code rfl rfl
theorem KindCode.start : KindCode.Statement .start := kindCode_of_code rfl rfl
theorem KindCode.resume : KindCode.Statement .resume := kindCode_of_code rfl rfl
theorem KindCode.hold : KindCode.Statement .hold := kindCode_of_code rfl rfl
theorem KindCode.release : KindCode.Statement .release := kindCode_of_code rfl rfl
theorem KindCode.skip : KindCode.Statement .skip := kindCode_of_code rfl rfl
theorem KindCode.abort : KindCode.Statement .abort := kindCode_of_code rfl rfl
theorem KindCode.chargeReset : KindCode.Statement .chargeReset := kindCode_of_code rfl rfl
theorem KindCode.readSchedule : KindCode.Statement .readSchedule := kindCode_of_code rfl rfl
theorem KindCode.readHistory : KindCode.Statement .readHistory := kindCode_of_code rfl rfl
theorem KindCode.setEnvelope : KindCode.Statement .setEnvelope := kindCode_of_code rfl rfl
theorem KindCode.readEnvelope : KindCode.Statement .readEnvelope := kindCode_of_code rfl rfl
theorem KindCode.setZoneMode : KindCode.Statement .setZoneMode := kindCode_of_code rfl rfl
theorem KindCode.readZone : KindCode.Statement .readZone := kindCode_of_code rfl rfl
theorem KindCode.readFault : KindCode.Statement .readFault := kindCode_of_code rfl rfl
theorem KindCode.clearFaults : KindCode.Statement .clearFaults := kindCode_of_code rfl rfl
theorem KindCode.collectNotices : KindCode.Statement .collectNotices := kindCode_of_code rfl rfl
theorem KindCode.zoneSet : KindCode.Statement .zoneSet := kindCode_of_none rfl
theorem KindCode.unknownRequest : KindCode.Statement .unknownRequest := kindCode_of_none rfl
theorem KindCode.kilnLineMarkingReturn : KindCode.Statement .kilnLineMarkingReturn := kindCode_of_none rfl

end Sys2Proof.Laws
end

