-- ==== Sys2Proof/Laws/Placement.lean ====
section
/-! SUPPORT. Where a frame built goes (R136, R138): it stands in the Drive Queue or is the exchange in flight, and the
builds of other zones leave it there. -/

namespace Sys2Proof.Laws

open Sys2Proof.Machine
open Sys2Proof.Safety

/-- The frame of a zone stands in the Drive Queue or is in flight. -/
def Placed (z : Fin 8) (f : SetpointFrame) (t : State) : Prop :=
  (∃ q ∈ t.zones.queue, q.zone = z ∧ q.frame = f) ∨
  (∃ x, t.zones.exchange = some x ∧ x.entry.zone = z ∧ x.entry.frame = f)

theorem placed_congr (z : Fin 8) (f : SetpointFrame) {s t : State} (h1 : t.zones.queue = s.zones.queue)
    (h2 : t.zones.exchange = s.zones.exchange) (h : Placed z f s) : Placed z f t := by
  unfold Placed; rw [h1, h2]; exact h

theorem placed_openExchange {z : Fin 8} {f : SetpointFrame} {t : State} (h : Placed z f t) :
    Placed z f (openExchange t) := by
  unfold openExchange
  split
  · next q rest h1 h2 =>
    split
    · rcases h with ⟨q', hq, e1, e2⟩ | ⟨x, hx, _⟩
      · rw [h2] at hq
        rcases List.mem_cons.1 hq with rfl | hq
        · exact .inr ⟨_, rfl, e1, e2⟩
        · exact .inl ⟨q', hq, e1, e2⟩
      · rw [h1] at hx; cases hx
    · exact h
  · exact h

theorem mem_placeFrame (q : QueuedFrame) (l : List QueuedFrame) : q ∈ placeFrame q l := by
  induction l with
  | nil => simp [placeFrame]
  | cons x xs ih => simp only [placeFrame]; split <;> simp [ih]

/-- R136: a new frame replaces its own zone's frame alone. -/
theorem mem_placeFrame_ne {q p : QueuedFrame} {l : List QueuedFrame} (h : p ∈ l) (hz : p.zone ≠ q.zone) :
    p ∈ placeFrame q l := by
  induction l with
  | nil => simp at h
  | cons x xs ih =>
    simp only [placeFrame]
    rcases List.mem_cons.1 h with rfl | h
    · rw [if_neg hz]; simp
    · split
      · simp [h]
      · simp [ih h]

theorem placed_enqueueFrame (q : QueuedFrame) (s : State) : Placed q.zone q.frame (enqueueFrame q s) :=
  placed_openExchange (.inl ⟨q, mem_placeFrame _ _, rfl, rfl⟩)

theorem placed_enqueueFrame_ne {z : Fin 8} {f : SetpointFrame} {q : QueuedFrame} {s : State} (h : Placed z f s)
    (hz : z ≠ q.zone) : Placed z f (enqueueFrame q s) := by
  refine placed_openExchange ?_
  rcases placed_openExchange h with ⟨p, hp, e1, e2⟩ | h
  · exact .inl ⟨p, mem_placeFrame_ne hp (by rw [e1]; exact hz), e1, e2⟩
  · exact .inr h

theorem zones_clampNotice (y : Fin 8) (f : SetpointFrame) (b : Bool) (s : State) :
    (clampNotice y f b s).zones = s.zones := by unfold clampNotice; split <;> rfl

theorem placed_buildFrame (z : Fin 8) (c : FrameContent) (s : State) :
    Placed z ((buildFrame z c s).zone z).lastBuilt (buildFrame z c s) := by
  rw [zone_buildFrame]; exact placed_enqueueFrame _ _

theorem placed_buildFrame_ne {y z : Fin 8} {c : FrameContent} {f : SetpointFrame} {s : State} (h : Placed z f s)
    (hz : y ≠ z) : Placed z f (buildFrame y c s) := by
  refine placed_enqueueFrame_ne (placed_congr z f (s := s) ?_ ?_ h) (by exact fun e => hz e.symm) <;>
    rw [zones_clampNotice] <;> rfl

theorem openExchange_keeps (s : State) : (openExchange s).sequencer = s.sequencer ∧
    (openExchange s).zones.envelope = s.zones.envelope ∧ (openExchange s).zones.periodTimer = s.zones.periodTimer := by
  unfold openExchange; split
  · split <;> exact ⟨rfl, rfl, rfl⟩
  · exact ⟨rfl, rfl, rfl⟩

theorem buildFrame_keeps (y : Fin 8) (c : FrameContent) (s : State) : (buildFrame y c s).sequencer = s.sequencer ∧
    (buildFrame y c s).zones.envelope = s.zones.envelope ∧
    (buildFrame y c s).zones.periodTimer = s.zones.periodTimer := by
  unfold buildFrame enqueueFrame
  refine ⟨?_, ?_, ?_⟩
  · rw [(openExchange_keeps _).1]; show (openExchange _).sequencer = _
    rw [(openExchange_keeps _).1]; unfold clampNotice; split <;> rfl
  · rw [(openExchange_keeps _).2.1]; show (openExchange _).zones.envelope = _
    rw [(openExchange_keeps _).2.1, zones_clampNotice]; rfl
  · rw [(openExchange_keeps _).2.2]; show (openExchange _).zones.periodTimer = _
    rw [(openExchange_keeps _).2.2, zones_clampNotice]; rfl

/-- What a build for a zone depends on is the same. -/
structure SameFor (z : Fin 8) (s t : State) : Prop where
  zone : t.zone z = s.zone z
  sequencer : t.sequencer = s.sequencer
  envelope : t.zones.envelope = s.zones.envelope
  period : t.zones.periodTimer = s.zones.periodTimer

theorem SameFor.refl (z : Fin 8) (s : State) : SameFor z s s := ⟨rfl, rfl, rfl, rfl⟩

theorem SameFor.trans {z : Fin 8} {s t u : State} (h : SameFor z s t) (k : SameFor z t u) : SameFor z s u :=
  ⟨k.zone.trans h.zone, k.sequencer.trans h.sequencer, k.envelope.trans h.envelope, k.period.trans h.period⟩

theorem sameFor_buildFrame {y z : Fin 8} (c : FrameContent) (s : State) (h : y ≠ z) : SameFor z s (buildFrame y c s) :=
  ⟨zone_buildFrame_ne y z c s h, (buildFrame_keeps y c s).1, (buildFrame_keeps y c s).2.1, (buildFrame_keeps y c s).2.2⟩

theorem builtFrame_congr {z : Fin 8} {s u : State} {c : FrameContent} (h : SameFor z s u) :
    builtFrame u z c = builtFrame s z c := by
  unfold builtFrame; rw [h.zone, h.envelope]

/-- A run of builds over other zones leaves what a zone's build depends on. -/
theorem sameFor_foldl {f : State → Fin 8 → State} (hf : ∀ s y z, y ≠ z → SameFor z s (f s y)) {l : List (Fin 8)}
    {z : Fin 8} (hz : z ∉ l) (s : State) : SameFor z s (l.foldl f s) := by
  induction l generalizing s with
  | nil => exact SameFor.refl _ _
  | cons y l ih =>
    simp only [List.mem_cons, not_or] at hz
    exact (hf s y z (fun e => hz.1 e.symm)).trans (ih hz.2 _)

/-- The entry of a zone in the run, and a property its build has and the builds of other zones keep. -/
theorem zone_foldl {f : State → Fin 8 → State} {z : Fin 8} {e : ZoneEntry} {l : List (Fin 8)}
    (hf : ∀ s y z, y ≠ z → SameFor z s (f s y)) (P : State → Prop) (hP : ∀ s y, y ≠ z → P s → P (f s y)) (s : State)
    (hm : z ∈ l) (nd : l.Nodup) (h0 : ∀ u, SameFor z s u → (f u z).zone z = e ∧ P (f u z)) :
    (l.foldl f s).zone z = e ∧ P (l.foldl f s) := by
  obtain ⟨l1, l2, rfl⟩ := List.append_of_mem hm
  rw [List.foldl_append, List.foldl_cons]
  have n1 : z ∉ l1 := fun h => (List.disjoint_of_nodup_append nd h (List.mem_cons_self ..)).elim
  have n2 : z ∉ l2 := (List.nodup_cons.1 nd.of_append_right).1
  obtain ⟨a1, a2⟩ := h0 _ (sameFor_foldl hf n1 s)
  refine ⟨((sameFor_foldl hf n2 _).zone).trans a1, ?_⟩
  generalize f (List.foldl f s l1) z = u at a2
  clear a1 nd hm
  induction l2 generalizing u with
  | nil => exact a2
  | cons y l ih =>
    simp only [List.mem_cons, not_or] at n2
    exact ih n2.2 _ (hP _ _ (fun e => n2.1 e.symm) a2)

end Sys2Proof.Laws
end

