-- ==== Sys2Proof/Laws/Plant.lean ====
section
/-! SUPPORT. What every operation of the plant (lines, Poller, probes, Estimator, Sequencer, zones, faults and
notices) leaves alone, and the conditions of Safety.lean that it keeps: one lemma per operation. -/

namespace Sys2Proof.Laws

open Sys2Proof.Machine
open Sys2Proof.Safety

/-- From `s` to `t` the command queue, straps, parameters, uptime, Kiln unit, curves and Handler are unchanged, the
mapping of every probe is unchanged, a probe's figure is kept where its state asks for one, every node keeps its mask and
stays VACANT or not, and the conditions on notices, Drive Queue and fault records are kept. -/
structure Outer (s t : State) : Prop where
  pending  : t.pending = s.pending
  straps   : t.straps = s.straps
  params   : t.params = s.params
  uptime   : t.uptime = s.uptime
  kiln     : t.kiln = s.kiln
  curves   : t.curves = s.curves
  handler  : t.handler = s.handler
  maps     : ∀ i : Fin 192, (t.probe i).mapping = (s.probe i).mapping ∧ (t.probe i).isMapped = (s.probe i).isMapped ∧
    (Figured (s.probe i) → Figured (t.probe i))
  nodes    : ∀ n : Fin 16, (t.node n).mask = (s.node n).mask ∧ ((t.node n).state = .vacant ↔ (s.node n).state = .vacant)
  notices  : NoticesSound s.notices → NoticesSound t.notices
  queue    : QueueSound s.zones → QueueSound t.zones
  faults   : FaultsSound s.faults → FaultsSound t.faults

/-- `Outer`, with the Sequencer unchanged. -/
structure Calm (s t : State) : Prop extends Outer s t where
  sequencer : t.sequencer = s.sequencer

/-- `Outer`, with the conditions on hold causes and schedule kept. -/
structure Plant (s t : State) : Prop extends Outer s t where
  causes   : CausesSound s.sequencer → CausesSound t.sequencer
  schedule : ScheduleSound s.sequencer → ScheduleSound t.sequencer

namespace Outer

theorem refl (s : State) : Outer s s := ⟨rfl, rfl, rfl, rfl, rfl, rfl, rfl, fun _ => ⟨rfl, rfl, id⟩,
  fun _ => ⟨rfl, Iff.rfl⟩, id, id, id⟩

theorem trans {s t u : State} (h : Outer s t) (k : Outer t u) : Outer s u where
  pending := k.pending.trans h.pending
  straps := k.straps.trans h.straps
  params := k.params.trans h.params
  uptime := k.uptime.trans h.uptime
  kiln := k.kiln.trans h.kiln
  curves := k.curves.trans h.curves
  handler := k.handler.trans h.handler
  maps i := ⟨(k.maps i).1.trans (h.maps i).1, (k.maps i).2.1.trans (h.maps i).2.1, (k.maps i).2.2 ∘ (h.maps i).2.2⟩
  nodes n := ⟨(k.nodes n).1.trans (h.nodes n).1, (k.nodes n).2.trans (h.nodes n).2⟩
  notices := k.notices ∘ h.notices
  queue := k.queue ∘ h.queue
  faults := k.faults ∘ h.faults

/-- An update that leaves every field of `Outer` equal. -/
theorem of_eq {s t : State} (h1 : t.pending = s.pending := by rfl) (h2 : t.straps = s.straps := by rfl)
    (h3 : t.params = s.params := by rfl) (h4 : t.uptime = s.uptime := by rfl) (h5 : t.kiln = s.kiln := by rfl)
    (h6 : t.curves = s.curves := by rfl) (h7 : t.handler = s.handler := by rfl)
    (h8 : t.probes = s.probes := by rfl) (h9 : t.notices = s.notices := by rfl)
    (h10 : t.zones.queue = s.zones.queue := by rfl) (h11 : t.faults = s.faults := by rfl)
    (h12 : t.poller.nodes = s.poller.nodes := by rfl) : Outer s t where
  pending := h1
  straps := h2
  params := h3
  uptime := h4
  kiln := h5
  curves := h6
  handler := h7
  maps i := by simp [State.probe, h8]
  nodes n := by simp [State.node, h12]
  notices := by rw [h9]; exact id
  queue := by unfold QueueSound; rw [h10]; exact id
  faults := by rw [h11]; exact id

end Outer

namespace Calm

theorem refl (s : State) : Calm s s := { Outer.refl s with sequencer := rfl }

theorem trans {s t u : State} (h : Calm s t) (k : Calm t u) : Calm s u :=
  { h.toOuter.trans k.toOuter with sequencer := k.sequencer.trans h.sequencer }

/-- A fold of calm operations. -/
theorem foldl {α : Type} {f : State → α → State} (h : ∀ s a, Calm s (f s a)) (l : List α) (s : State) :
    Calm s (l.foldl f s) := by
  induction l generalizing s with
  | nil => exact refl s
  | cons a l ih => exact (h s a).trans (ih _)

theorem plant {s t : State} (h : Calm s t) : Plant s t :=
  { h.toOuter with
    causes := by rw [h.sequencer]; exact id
    schedule := by rw [h.sequencer]; exact id }

end Calm

namespace Plant

theorem refl (s : State) : Plant s s := (Calm.refl s).plant

theorem trans {s t u : State} (h : Plant s t) (k : Plant t u) : Plant s u :=
  { h.toOuter.trans k.toOuter with causes := k.causes ∘ h.causes, schedule := k.schedule ∘ h.schedule }

end Plant

/-! ### Notices and faults -/

theorem calm_raiseNotice (k : NoticeKind) (n : Nat) (a b : Option Nat) (s : State) :
    Calm s (raiseNotice k n a b s) := by
  refine { Calm.refl s with notices := fun h => ?_ }
  simp only [raiseNotice, NoticeQueue.add, NoticesSound, Config.noticeCapacity] at *
  by_cases hl : s.notices.items.length < 32
  · simp only [hl, if_true, List.length_append, List.length_singleton]
    omega
  · simpa [hl] using h

theorem matching_some {f : FaultSet} {src : FaultSource} {why : FaultReason} {i : Fin 16}
    (h : f.matching src why = some i) : ∃ r, f.records[i] = some r ∧ r.source = src ∧ r.reason = why := by
  have := List.find?_some h
  simp only [Option.any_eq_true] at this
  obtain ⟨r, hr, hm⟩ := this
  refine ⟨r, hr, ?_⟩
  simpa [FaultRecord.isOf] using hm

theorem matching_none {f : FaultSet} {src : FaultSource} {why : FaultReason} (h : f.matching src why = none)
    {i : Fin 16} {r : FaultRecord} (hr : f.records[i] = some r) : ¬(r.source = src ∧ r.reason = why) := by
  have := List.find?_eq_none.mp h i (List.mem_finRange i)
  simp only [hr, Option.any_some, FaultRecord.isOf] at this
  simpa using this

/-- A record put into the set keeps records apart when no other record has its source and reason. -/
theorem faultsSound_set {f : FaultSet} (h : FaultsSound f) (i : Fin 16) (r : FaultRecord) (o : Bool)
    (hr : ∀ j a, j ≠ i → f.records[j] = some a → ¬(a.source = r.source ∧ a.reason = r.reason)) :
    FaultsSound { records := f.records.set i (some r), overflow := o } := by
  intro j k a b ha hb hs hw
  simp only [Fin.getElem_fin, Vector.getElem_set] at ha hb
  by_cases hj : i.val = j.val <;> by_cases hk : i.val = k.val
  · exact Fin.ext (hj.symm.trans hk)
  · rw [if_pos hj] at ha; rw [if_neg hk] at hb
    cases ha
    exact absurd ⟨hs.symm, hw.symm⟩ (hr k b (fun e => hk (by rw [e])) hb)
  · rw [if_neg hj] at ha; rw [if_pos hk] at hb
    cases hb
    exact absurd ⟨hs, hw⟩ (hr j a (fun e => hj (by rw [e])) ha)
  · rw [if_neg hj] at ha; rw [if_neg hk] at hb
    exact h j k a b ha hb hs hw

/-- Freeing a record keeps records apart. -/
theorem faultsSound_free {f : FaultSet} (h : FaultsSound f) (i : Fin 16) (o : Bool) :
    FaultsSound { records := f.records.set i none, overflow := o } := by
  intro j k a b ha hb hs hw
  simp only [Fin.getElem_fin, Vector.getElem_set] at ha hb
  by_cases hj : i.val = j.val
  · simp [hj] at ha
  by_cases hk : i.val = k.val
  · simp [hk] at hb
  rw [if_neg hj] at ha; rw [if_neg hk] at hb
  exact h j k a b ha hb hs hw

theorem calm_recordFault (src : FaultSource) (why : FaultReason) (d : Option Int) (s : State)
    (h : s.faults.matching src why = none) : Calm s (recordFault src why d s) := by
  unfold recordFault
  split
  · next i hi =>
    refine Calm.trans ?_ (calm_raiseNotice _ _ _ _ _)
    refine { Calm.refl s with faults := fun hf => ?_ }
    exact faultsSound_set hf i _ _ fun j a _ ha => matching_none h ha
  · unfold loseFault
    split
    · exact Calm.refl s
    · refine Calm.trans ?_ (calm_raiseNotice _ _ _ _ _)
      exact { Calm.refl s with faults := fun hf => hf }

theorem calm_raiseFault (src : FaultSource) (why : FaultReason) (d : Option Int) (s : State) :
    Calm s (raiseFault src why d s) := by
  unfold raiseFault
  split
  · next i hi =>
    obtain ⟨r, hr, hs, hw⟩ := matching_some hi
    refine { Calm.refl s with faults := fun hf => ?_ }
    rw [hr]
    refine faultsSound_set hf i _ _ fun j a hj ha hb => hj (hf j i a r ha hr ?_ ?_)
    · exact hb.1
    · exact hb.2
  · next h => exact calm_recordFault src why d s h

/-! ### Zones -/

theorem calm_setZone (z : Fin 8) (e : ZoneEntry) (s : State) : Calm s (s.setZone z e) := { Outer.of_eq with sequencer := rfl }

theorem calm_setExchange (x : Option DriveExchange) (s : State) : Calm s (s.setExchange x) := { Outer.of_eq with sequencer := rfl }

/-- A change of the Drive Queue that keeps its zones apart. -/
theorem calm_setQueue (q : List QueuedFrame) (s : State)
    (h : QueueSound s.zones → (q.map (·.zone)).Nodup) : Calm s (s.setQueue q) :=
  { Calm.refl s with queue := h }

theorem calm_openExchange (s : State) : Calm s (openExchange s) := by
  unfold openExchange
  split
  · next q rest _ hq =>
    split
    · refine { Calm.refl s with queue := fun h => ?_ }
      simp only [QueueSound, hq, List.map_cons, List.nodup_cons] at h
      exact h.2
    · exact Calm.refl s
  · exact Calm.refl s

/-- The zones of a queue after a placement: the same, or one more at the back. -/
theorem zones_placeFrame (q : QueuedFrame) (l : List QueuedFrame) :
    (placeFrame q l).map (·.zone) =
      if q.zone ∈ l.map (·.zone) then l.map (·.zone) else l.map (·.zone) ++ [q.zone] := by
  induction l with
  | nil => simp [placeFrame]
  | cons x xs ih =>
    unfold placeFrame
    by_cases h : x.zone = q.zone
    · simp [h]
    · rw [if_neg h, List.map_cons, ih]
      have h' : ¬q.zone = x.zone := fun e => h e.symm
      simp only [List.map_cons, List.mem_cons, h', false_or]
      split <;> simp

theorem nodup_placeFrame (q : QueuedFrame) (l : List QueuedFrame) (h : (l.map (·.zone)).Nodup) :
    ((placeFrame q l).map (·.zone)).Nodup := by
  rw [zones_placeFrame]
  split
  · exact h
  · next hn =>
    rw [List.nodup_append]
    refine ⟨h, by simp, ?_⟩
    intro a ha b hb e
    simp only [List.mem_singleton] at hb
    exact hn (hb ▸ e ▸ ha)

theorem calm_enqueueFrame (q : QueuedFrame) (s : State) : Calm s (enqueueFrame q s) := by
  unfold enqueueFrame
  exact (calm_openExchange s).trans
    ((calm_setQueue _ _ (nodup_placeFrame q _)).trans (calm_openExchange _))

theorem calm_clampNotice (z : Fin 8) (f : SetpointFrame) (b : Bool) (s : State) : Calm s (clampNotice z f b s) := by
  unfold clampNotice
  split
  · exact calm_raiseNotice _ _ _ _ _
  · exact Calm.refl s

theorem calm_buildFrame (z : Fin 8) (c : FrameContent) (s : State) : Calm s (buildFrame z c s) :=
  (calm_setZone z _ s).trans ((calm_clampNotice z _ _ _).trans (calm_enqueueFrame _ _))

theorem calm_autoBuild (s : State) (z : Fin 8) : Calm s (autoBuild s z) := by
  unfold autoBuild
  split
  · exact calm_buildFrame _ _ _
  · exact Calm.refl s

theorem calm_tellZones (s : State) : Calm s (tellZones s) := Calm.foldl calm_autoBuild _ s

theorem calm_periodBuild (s : State) (z : Fin 8) : Calm s (periodBuild s z) := by
  unfold periodBuild
  split
  · exact calm_buildFrame _ _ _
  · exact calm_buildFrame _ _ _
  · exact Calm.refl s

theorem calm_drivePeriod (s : State) : Calm s (drivePeriod s) :=
  ({ Outer.of_eq with sequencer := rfl } : Calm s (ageZones s)).trans ((calm_openExchange _).trans (Calm.foldl calm_periodBuild _ _))

theorem calm_modeBuild (z : Fin 8) (m : ZoneMode) (s : State) : Calm s (modeBuild z m s) := by
  cases m
  · exact calm_buildFrame _ _ _
  · exact calm_buildFrame _ _ _
  · exact Calm.refl s

theorem calm_setZoneMode (z : Fin 8) (m : ZoneMode) (s : State) : Calm s (setZoneMode z m s) := by
  unfold setZoneMode
  split
  · exact Calm.refl s
  · refine (calm_openExchange s).trans (Calm.trans (calm_setQueue _ _ fun h => ?_)
      ((calm_setZone z _ _).trans (calm_modeBuild z m _)))
    exact h.sublist (List.filter_sublist.map _)

theorem calm_takeManual (z : Fin 8) (r : ManualRecord) (s : State) : Calm s (takeManual z r s) :=
  (calm_setZone z _ s).trans (calm_buildFrame _ _ _)

theorem calm_endExchange (s : State) : Calm s (endExchange s) :=
  (calm_setExchange none s).trans (calm_openExchange _)

theorem calm_takeStatus (z : Fin 8) (st : DriverStatus) (s : State) : Calm s (takeStatus z st s) := by
  unfold takeStatus
  dsimp only
  refine (calm_setZone z ((s.zone z).answered st) s).trans (Calm.trans ?_ (calm_endExchange _))
  split
  · exact calm_raiseFault _ _ _ _
  · exact Calm.refl _

theorem calm_zoneMiss (z : Fin 8) (s : State) : Calm s (zoneMiss z s) := by
  unfold zoneMiss
  dsimp only
  split
  · exact (calm_setZone z _ s).trans (calm_raiseFault _ _ _ _)
  · exact calm_setZone z _ s

theorem calm_noAnswer (s : State) : Calm s (noAnswer s) := by
  unfold noAnswer
  split
  · split
    · exact (calm_zoneMiss _ s).trans (calm_endExchange _)
    · exact Calm.refl s
  · exact Calm.refl s

theorem calm_driveDelivered (f : Frame) (s : State) : Calm s (driveDelivered f s) := by
  unfold driveDelivered
  split
  · exact Calm.refl s
  · split
    · exact Calm.refl s
    · split
      · exact Calm.refl s
      · split
        · exact calm_takeStatus _ _ s
        · exact calm_noAnswer s

theorem calm_driveSent (s : State) : Calm s (driveSent s) := by
  unfold driveSent
  split
  · exact calm_setExchange _ s
  · exact Calm.refl s

theorem calm_abandonExchange (s : State) : Calm s (abandonExchange s) := by
  unfold abandonExchange
  split
  · exact Calm.refl s
  · next x hx =>
    split
    · next h =>
      refine (calm_setQueue _ s fun hq => ?_).trans (calm_setExchange none _)
      have hp := h.2
      simp only [putsBack, Bool.and_eq_true, List.all_eq_true, bne_iff_ne, ne_eq] at hp
      simp only [List.map_cons, List.nodup_cons, List.mem_map, not_exists, not_and]
      exact ⟨fun q hm he => hp.1 q hm he, hq⟩
    · exact calm_setExchange none s

end Sys2Proof.Laws
end

