-- ==== Sys2Proof/Laws/PlantSchedule.lean ====
section
/-! SUPPORT. `Plant` for the Schedule Sequencer and the Charge Estimator: hold causes, step entry and exit, the
start of a schedule, Estimates and Charge Reset. -/

namespace Sys2Proof.Laws

open Sys2Proof.Machine
open Sys2Proof.Safety

theorem outer_setSequencer (q : Sequencer) (s : State) : Outer s (s.setSequencer q) := Outer.of_eq

theorem plant_setSequencer (q : Sequencer) (s : State) (hc : CausesSound s.sequencer → CausesSound q)
    (hs : ScheduleSound s.sequencer → ScheduleSound q) : Plant s (s.setSequencer q) :=
  { outer_setSequencer q s with causes := hc, schedule := hs }

/-- `ScheduleSound` sees only these parts of the Sequencer. -/
theorem scheduleSound_congr {q p : Sequencer} (h : ScheduleSound q) (h1 : p.steps = q.steps)
    (h2 : p.stepCount = q.stepCount) (h3 : p.history = q.history) (h4 : p.state = .loaded → q.state = .loaded)
    (h5 : p.engaged = true → q.engaged = true) (h6 : p.engaged = true → p.stepIndex = q.stepIndex)
    (h7 : p.engaged = true → p.elapsed = q.elapsed) : ScheduleSound p := by
  obtain ⟨a, b, c, d, e, f⟩ := h
  have hs : ∀ i, p.stepAt i = q.stepAt i := fun i => by simp [Sequencer.stepAt, h1]
  refine ⟨fun i r => by rw [hs]; exact a i r, by rw [h2]; exact b, fun i => by rw [h2, hs]; exact c i,
    by rw [h3]; exact d, fun h => by rw [h2]; exact e (h4 h), fun h => ?_⟩
  obtain ⟨i, r, g⟩ := f (h5 h)
  refine ⟨i, r, ?_⟩
  rw [h6 h, h2, hs, h7 h, h3]
  exact g

/-- The conditions on the Step Table and the step count (R100, R102), which every entry and exit leaves alone. -/
structure TableSound (q : Sequencer) : Prop where
  records : ∀ i r, q.stepAt i = some r → stepRecordOk r = true
  count   : q.stepCount ≤ 24
  loaded  : ∀ i, i < q.stepCount → (q.stepAt i).isSome = true

theorem ScheduleSound.table {q : Sequencer} (h : ScheduleSound q) : TableSound q := ⟨h.1, h.2.1, h.2.2.1⟩

theorem engaged_iff (q : Sequencer) : q.engaged = true ↔ q.state = .running ∨ q.state = .held := by
  cases h : q.state <;> simp [Sequencer.engaged, h]

theorem stepRecordOk_maximum {r : StepRecord} (h : stepRecordOk r = true) : 0 < r.maximum := by
  simp only [stepRecordOk, Bool.and_eq_true, decide_eq_true_eq] at h
  omega

/-- A schedule outside RUNNING, HELD and LOADED is sound by its tables and the length of its history. -/
theorem scheduleSound_idle {q : Sequencer} (h : TableSound q) (hh : q.history.length ≤ 24)
    (hl : q.state ≠ .loaded) (he : q.engaged = false) : ScheduleSound q :=
  ⟨h.records, h.count, h.loaded, hh, fun e => absurd e hl, fun e => by rw [he] at e; cases e⟩

theorem calm_scheduleNotice (s : State) : Calm s (scheduleNotice s) := calm_raiseNotice _ _ _ _ _

/-! ### The hold-cause set -/

/-- A change of the cause set within RUNNING and HELD, to a state that fits the new set. -/
theorem plant_changeHold (c : Causes) (st : ScheduleState) (s : State) (he : s.sequencer.engaged = true)
    (hst : st = .running ∨ st = .held) (hc : c.isEmpty = false ↔ st = .held) : Plant s (changeHold c st s) := by
  have h1 : Plant s (s.setSequencer { s.sequencer with causes := c, state := st }) := by
    refine plant_setSequencer _ s (fun _ => hc) fun h =>
      scheduleSound_congr h rfl rfl rfl ?_ (fun _ => he) (fun _ => rfl) (fun _ => rfl)
    intro (e : st = .loaded)
    rcases hst with h | h <;> rw [h] at e <;> cases e
  unfold changeHold
  dsimp only
  split
  · exact h1.trans (calm_scheduleNotice _).plant
  · exact h1.trans ((calm_scheduleNotice _).trans (calm_tellZones _)).plant

theorem plant_addCause (h : HoldCause) (s : State) : Plant s (addCause h s) := by
  unfold addCause
  split
  · next hb =>
    simp only [Bool.and_eq_true] at hb
    exact plant_changeHold _ _ s hb.1 (.inr rfl) (by cases h <;> simp [Causes.put, Causes.isEmpty])
  · exact Plant.refl s

theorem plant_removeCause (h : HoldCause) (s : State) : Plant s (removeCause h s) := by
  unfold removeCause
  split
  · next hb =>
    simp only [Bool.and_eq_true] at hb
    refine plant_changeHold _ _ s hb.1 ?_ ?_
    · split <;> simp
    · by_cases he : (s.sequencer.causes.put h false).isEmpty = true
      · simp [he]
      · simp [he]
  · exact Plant.refl s

/-! ### Step entry -/

/-- The cause set and state after an entry fit each other when those before it did. -/
theorem causesSound_entered {q : Sequencer} (i e : Nat) (r : StepRecord) (b : Int) (h : CausesSound q) :
    CausesSound (q.entered i e r b) := by
  unfold CausesSound at *
  show (entryCauses q r).isEmpty = false ↔ entryState q r = .held
  unfold entryState
  by_cases hf : entryFrees q r = true
  · have hst : q.causes.starved = true := by
      simp only [entryFrees, Bool.and_eq_true] at hf; exact hf.2
    have hh : q.state = .held := h.mp (by simp [Causes.isEmpty, hst])
    by_cases hem : (entryCauses q r).isEmpty = true
    · simp [hf, hem]
    · simp [hf, hem, hh]
  · simp only [entryCauses, hf, Bool.false_and, Bool.false_eq_true, if_false]
    exact h

theorem entryState_engaged {q : Sequencer} (r : StepRecord) (h : q.engaged = true) :
    entryState q r = .running ∨ entryState q r = .held := by
  unfold entryState
  split
  · exact .inl rfl
  · exact (engaged_iff q).mp h

theorem scheduleSound_entered {q : Sequencer} (i e : Nat) (r : StepRecord) (b : Int) (h : TableSound q)
    (he : q.engaged = true) (hi : i < q.stepCount) (hr : q.stepAt i = some r) (hm : e < r.maximum)
    (hh : q.history.length ≤ i) : ScheduleSound (q.entered i e r b) := by
  refine ⟨h.records, h.count, h.loaded, ?_, fun hl => ?_, fun _ => ⟨i, r, rfl, hi, hr, hm, hh⟩⟩
  · exact hh.trans (hi.le.trans h.count)
  · have := entryState_engaged r he
    change entryState q r = .loaded at hl
    rw [hl] at this
    simp at this

theorem outer_enterStep (i e : Nat) (r : StepRecord) (b : Int) (s : State) : Outer s (enterStep i e r b s) := by
  have h1 : Outer s (clearLagFlags (s.setSequencer (s.sequencer.entered i e r b))) := Outer.of_eq
  unfold enterStep
  dsimp only
  refine Outer.trans ?_ (calm_tellZones _).toOuter
  split
  · exact h1
  · exact h1.trans (calm_tellZones _).toOuter

/-- The Sequencer after an entry. -/
@[simp] theorem enterStep_sequencer (i e : Nat) (r : StepRecord) (b : Int) (s : State) :
    (enterStep i e r b s).sequencer = s.sequencer.entered i e r b := by
  unfold enterStep
  dsimp only
  rw [(calm_tellZones _).sequencer]
  split
  · rfl
  · rw [(calm_tellZones _).sequencer]; rfl

/-! ### Step exit -/

theorem outer_advanceTo (i : Nat) (r : StepRecord) (why : ExitReason) (s : State) : Outer s (advanceTo i r why s) := by
  unfold advanceTo
  dsimp only
  have h1 := (outer_enterStep (i + 1) 0 r (s.sequencer.working.getD r.goal) s).trans
    (calm_raiseNotice .stepChange (i + 1) (some i) (some why.code) _).toOuter
  split
  · exact h1.trans (calm_scheduleNotice _).toOuter
  · exact h1

/-- The Sequencer after an advance. -/
theorem advanceTo_sequencer (i : Nat) (r : StepRecord) (why : ExitReason) (s : State) :
    (advanceTo i r why s).sequencer = s.sequencer.entered (i + 1) 0 r (s.sequencer.working.getD r.goal) := by
  unfold advanceTo
  dsimp only
  split
  · rw [(calm_scheduleNotice _).sequencer, (calm_raiseNotice _ _ _ _ _).sequencer, enterStep_sequencer]
  · rw [(calm_raiseNotice _ _ _ _ _).sequencer, enterStep_sequencer]

theorem outer_endSchedule (i : Nat) (why : ExitReason) (s : State) : Outer s (endSchedule i why s) :=
  (outer_setSequencer _ s).trans ((calm_raiseNotice _ _ _ _ _).trans
    ((calm_scheduleNotice _).trans (calm_tellZones _))).toOuter

/-- The Sequencer after the end of the schedule. -/
theorem endSchedule_sequencer (i : Nat) (why : ExitReason) (s : State) :
    (endSchedule i why s).sequencer = { s.sequencer with state := .ended, causes := noCauses } := by
  unfold endSchedule
  rw [(calm_tellZones _).sequencer, (calm_scheduleNotice _).sequencer, (calm_raiseNotice _ _ _ _ _).sequencer]
  rfl

theorem outer_appendHistory (h : HistoryEntry) (s : State) : Outer s (appendHistory h s) := Outer.of_eq

/-- What an exit does to the Sequencer of a sound RUNNING or HELD schedule that stands in step `i`: it enters step
`i + 1` or ends, with one history entry more. -/
theorem exitStep_sequencer (why : ExitReason) (s : State) (i : Nat) (hi : s.sequencer.stepIndex = some i)
    (hl : ∀ j, j < s.sequencer.stepCount → (s.sequencer.stepAt j).isSome = true) :
    let q := { s.sequencer with history := s.sequencer.history ++ [exitEntry s i why] }
    (∃ r, i + 1 < q.stepCount ∧ q.stepAt (i + 1) = some r ∧
      (exitStep why s).sequencer = q.entered (i + 1) 0 r (q.working.getD r.goal)) ∨
    (¬ i + 1 < q.stepCount ∧ (exitStep why s).sequencer = { q with state := .ended, causes := noCauses }) := by
  intro q
  have hx : exitStep why s =
      if i + 1 < q.stepCount then
        match q.stepAt (i + 1) with
        | some r => advanceTo i r why (appendHistory (exitEntry s i why) s)
        | none => appendHistory (exitEntry s i why) s
      else endSchedule i why (appendHistory (exitEntry s i why) s) := by
    unfold exitStep
    rw [hi]
    rfl
  rw [hx]
  split
  · next hlt =>
    split
    · next r hr => exact .inl ⟨r, hlt, hr, advanceTo_sequencer i r why _⟩
    · next hn =>
      have h1 : (s.sequencer.stepAt (i + 1)).isSome = true := hl (i + 1) hlt
      have h2 : s.sequencer.stepAt (i + 1) = none := hn
      rw [h2] at h1
      cases h1
  · next hge => exact .inr ⟨hge, endSchedule_sequencer i why _⟩

theorem outer_exitStep (why : ExitReason) (s : State) : Outer s (exitStep why s) := by
  unfold exitStep
  split
  · exact Outer.refl s
  · dsimp only
    split
    · split
      · exact (outer_appendHistory _ s).trans (outer_advanceTo _ _ _ _)
      · exact outer_appendHistory _ s
    · exact (outer_appendHistory _ s).trans (outer_endSchedule _ _ _)

/-- An exit from a RUNNING or HELD schedule. The soundness of the schedule is asked for without the bound on the
elapsed count, which the tick that makes a step exit has just reached. -/
theorem plant_exitStep (why : ExitReason) (s : State) (he : s.sequencer.engaged = true)
    (hs : ∃ i, s.sequencer.stepIndex = some i ∧ i < s.sequencer.stepCount ∧ s.sequencer.history.length ≤ i)
    (ht : TableSound s.sequencer) (hc : CausesSound s.sequencer) :
    Outer s (exitStep why s) ∧ CausesSound (exitStep why s).sequencer ∧ ScheduleSound (exitStep why s).sequencer := by
  obtain ⟨i, hi, hlt, hh⟩ := hs
  have ht' : TableSound { s.sequencer with history := s.sequencer.history ++ [exitEntry s i why] } :=
    ⟨ht.records, ht.count, ht.loaded⟩
  refine ⟨outer_exitStep why s, ?_⟩
  rcases exitStep_sequencer why s i hi ht.loaded with ⟨r, h1, h2, h3⟩ | ⟨h1, h3⟩
  · rw [h3]
    refine ⟨causesSound_entered _ _ _ _ hc, scheduleSound_entered _ _ _ _ ht' he h1 h2 ?_ ?_⟩
    · exact stepRecordOk_maximum (ht.records _ _ h2)
    · simp only [List.length_append, List.length_singleton]; omega
  · rw [h3]
    refine ⟨by simp [CausesSound, noCauses, Causes.isEmpty], scheduleSound_idle ?_ ?_ (by simp) (by rfl)⟩
    · exact ⟨ht.records, ht.count, ht.loaded⟩
    · have := ht.count
      simp only [List.length_append, List.length_singleton]; omega

/-! ### Estimates -/

theorem calm_storeEstimate (e : Estimate) (s : State) : Calm s (storeEstimate e s) :=
  { Outer.of_eq with sequencer := rfl }

theorem calm_checkZoneLag (e : Estimate) (s : State) (z : Fin 8) : Calm s (checkZoneLag e s z) := by
  unfold checkZoneLag
  split
  · refine Calm.trans ?_ (calm_raiseNotice _ _ _ _ _)
    exact { Outer.of_eq with sequencer := rfl }
  · exact Calm.refl s

theorem calm_zoneLagCheck (e : Estimate) (s : State) : Calm s (zoneLagCheck e s) := by
  unfold zoneLagCheck
  split
  · exact Calm.foldl (calm_checkZoneLag e) _ s
  · exact Calm.refl s

theorem plant_setStreak (n : Nat) (s : State) : Plant s (s.setStreak n) :=
  plant_setSequencer _ s id fun h => scheduleSound_congr h rfl rfl rfl id id (fun _ => rfl) (fun _ => rfl)

theorem plant_updateStarvation (b : Bool) (s : State) : Plant s (updateStarvation b s) := by
  unfold updateStarvation
  split
  · exact (plant_setStreak 0 s).trans (plant_removeCause _ _)
  · dsimp only
    split
    · exact (plant_setStreak _ s).trans (plant_addCause _ _)
    · exact plant_setStreak _ s

theorem plant_starvationStage (e : Estimate) (s : State) : Plant s (starvationStage e s) := by
  unfold starvationStage
  split
  · exact plant_updateStarvation _ s
  · exact Plant.refl s

/-- `Outer` for an Estimate handed over; the conditions are kept together, since an exit needs both. -/
theorem outer_takeEstimate (e : Estimate) (s : State) : Outer s (takeEstimate e s) := by
  unfold takeEstimate
  dsimp only
  split
  · exact (plant_starvationStage e s).toOuter.trans (outer_exitStep _ _)
  · exact (plant_starvationStage e s).toOuter

theorem sound_takeEstimate (e : Estimate) (s : State) (hc : CausesSound s.sequencer)
    (hs : ScheduleSound s.sequencer) :
    CausesSound (takeEstimate e s).sequencer ∧ ScheduleSound (takeEstimate e s).sequencer := by
  have h1 := plant_starvationStage e s
  unfold takeEstimate
  dsimp only
  split
  · next hd =>
    have hst : (starvationStage e s).sequencer.state = .running := by
      simp only [advanceDue, Bool.and_eq_true, beq_iff_eq] at hd
      exact hd.1
    have he : (starvationStage e s).sequencer.engaged = true := (engaged_iff _).mpr (.inl hst)
    have h2 := h1.schedule hs
    obtain ⟨i, r, g1, g2, -, -, g3⟩ := h2.2.2.2.2.2 he
    exact (plant_exitStep .condition _ he ⟨i, g1, g2, g3⟩ (ScheduleSound.table h2) (h1.causes hc)).2
  · exact ⟨h1.causes hc, h1.schedule hs⟩

/-! ### Operations that need both conditions -/

/-- `Outer`, with the conditions on hold causes and schedule kept together. -/
structure Whole (s t : State) : Prop extends Outer s t where
  sound : CausesSound s.sequencer → ScheduleSound s.sequencer → CausesSound t.sequencer ∧ ScheduleSound t.sequencer

theorem Plant.whole {s t : State} (h : Plant s t) : Whole s t :=
  { h.toOuter with sound := fun c d => ⟨h.causes c, h.schedule d⟩ }

theorem Calm.whole {s t : State} (h : Calm s t) : Whole s t := h.plant.whole

theorem Whole.refl (s : State) : Whole s s := (Plant.refl s).whole

theorem Whole.trans {s t u : State} (h : Whole s t) (k : Whole t u) : Whole s u :=
  { h.toOuter.trans k.toOuter with sound := fun c d => k.sound (h.sound c d).1 (h.sound c d).2 }

theorem whole_takeEstimate (e : Estimate) (s : State) : Whole s (takeEstimate e s) :=
  { outer_takeEstimate e s with sound := sound_takeEstimate e s }

theorem whole_closeEstimate (s : State) : Whole s (closeEstimate s) := by
  unfold closeEstimate
  exact ((calm_storeEstimate _ s).trans (calm_zoneLagCheck _ _)).whole.trans (whole_takeEstimate _ _)

theorem whole_exitStep (why : ExitReason) (s : State) (he : s.sequencer.engaged = true) : Whole s (exitStep why s) := by
  refine { outer_exitStep why s with sound := fun hc hs => ?_ }
  obtain ⟨i, r, g1, g2, -, -, g3⟩ := hs.2.2.2.2.2 he
  exact (plant_exitStep why s he ⟨i, g1, g2, g3⟩ (ScheduleSound.table hs) hc).2

theorem outer_startSchedule (i e : Nat) (r : StepRecord) (s : State) : Outer s (startSchedule i e r s) :=
  (outer_setSequencer _ s).trans ((outer_enterStep _ _ _ _ _).trans (calm_scheduleNotice _).toOuter)

/-- A start in a loaded step below the count, at an elapsed count below its maximum. -/
theorem whole_startSchedule (i e : Nat) (r : StepRecord) (s : State) (hi : i < s.sequencer.stepCount)
    (hr : s.sequencer.stepAt i = some r) (hm : e < r.maximum) : Whole s (startSchedule i e r s) := by
  refine { outer_startSchedule i e r s with sound := fun _ hs => ?_ }
  unfold startSchedule
  rw [(calm_scheduleNotice _).sequencer, enterStep_sequencer]
  have hcs : (startCauses s).isEmpty = false ↔ startState s = .held := by
    unfold startState; cases (startCauses s).isEmpty <;> simp
  have hen : startState s = .running ∨ startState s = .held := by
    unfold startState; split <;> simp
  refine ⟨causesSound_entered _ _ _ _ hcs, scheduleSound_entered _ _ _ _ ?_ ((engaged_iff _).mpr hen) hi hr hm ?_⟩
  · exact ⟨hs.1, hs.2.1, hs.2.2.1⟩
  · simp

theorem whole_abortSchedule (s : State) : Whole s (abortSchedule s) := by
  unfold abortSchedule
  refine Whole.trans ?_ ((calm_scheduleNotice _).trans (calm_tellZones _)).whole
  refine { outer_setSequencer _ s with sound := fun _ hs => ⟨?_, ?_⟩ }
  · simp [CausesSound, noCauses, Causes.isEmpty]
  · exact scheduleSound_idle ⟨hs.1, hs.2.1, hs.2.2.1⟩ hs.2.2.2.1 (by simp) (by rfl)

/-! ### The minute tick -/

theorem whole_fanTest (r : StepRecord) (s : State) : Whole s (fanTest r s) := by
  unfold fanTest
  split
  · refine Whole.trans (Plant.whole (plant_setSequencer _ s ?_ ?_)) (calm_tellZones _).whole
    · exact fun h => h
    · exact fun h => scheduleSound_congr h rfl rfl rfl id id (fun _ => rfl) (fun _ => rfl)
  · exact Whole.refl s

/-- `Outer` but for the uptime, with the conditions kept: a minute tick. -/
theorem minuteTick_sound (s : State) :
    Outer (uptimeTick s) (minuteTick s) ∧ (CausesSound s.sequencer → ScheduleSound s.sequencer →
      CausesSound (minuteTick s).sequencer ∧ ScheduleSound (minuteTick s).sequencer) := by
  unfold minuteTick
  dsimp only
  cases hst : (uptimeTick s).sequencer.state with
  | running =>
    dsimp only
    have hrun : s.sequencer.state = .running := hst
    unfold runningTick
    split
    · next hn =>
      refine ⟨Outer.of_eq, fun hc hs => ?_⟩
      obtain ⟨i, r, g1, -, g2, -⟩ := hs.2.2.2.2.2 ((engaged_iff _).mpr (.inl hrun))
      have h1 : s.sequencer.currentStep = none := hn
      rw [Sequencer.currentStep, g1, Option.bind_some, g2] at h1
      cases h1
    · next r hr =>
      split
      · next hmax =>
        refine ⟨(outer_setSequencer _ _).trans (outer_exitStep _ _), fun hc hs => ?_⟩
        obtain ⟨i, r', g1, g2, -, -, g3⟩ := hs.2.2.2.2.2 ((engaged_iff _).mpr (.inl hrun))
        exact (plant_exitStep (limitReason r) ((uptimeTick s).setSequencer (uptimeTick s).sequencer.ticked)
          ((engaged_iff _).mpr (.inl hrun)) ⟨i, g1, g2, g3⟩ ⟨hs.1, hs.2.1, hs.2.2.1⟩ hc).2
      · next hmax =>
        have h2 := whole_fanTest r (((uptimeTick s).setSequencer (uptimeTick s).sequencer.ticked).setSequencer
          (((uptimeTick s).setSequencer (uptimeTick s).sequencer.ticked).sequencer.ramped r))
        refine ⟨(outer_setSequencer _ _).trans ((outer_setSequencer _ _).trans h2.toOuter), fun hc hs => ?_⟩
        refine h2.sound hc ?_
        obtain ⟨a1, a2, a3, a4, a5, a6⟩ := hs
        refine ⟨a1, a2, a3, a4, a5, fun _ => ?_⟩
        obtain ⟨i, r', g1, g2, g3, g4, g5⟩ := a6 ((engaged_iff _).mpr (.inl hrun))
        refine ⟨i, r', g1, g2, g3, ?_, g5⟩
        have hrr : r' = r := by
          have h1 : s.sequencer.currentStep = some r := hr
          rw [Sequencer.currentStep, g1, Option.bind_some, g3] at h1
          cases h1
          rfl
        subst hrr
        exact Nat.lt_of_not_le hmax
  | held =>
    dsimp only
    refine ⟨outer_setSequencer _ _, fun hc hs => ⟨hc, ?_⟩⟩
    exact scheduleSound_congr hs rfl rfl rfl id id (fun _ => rfl) (fun _ => rfl)
  | empty => exact ⟨Outer.refl _, fun hc hs => ⟨hc, hs⟩⟩
  | loaded => exact ⟨Outer.refl _, fun hc hs => ⟨hc, hs⟩⟩
  | ended => exact ⟨Outer.refl _, fun hc hs => ⟨hc, hs⟩⟩
  | aborted => exact ⟨Outer.refl _, fun hc hs => ⟨hc, hs⟩⟩

/-! ### Requests on the schedule -/

theorem whole_setStepCount (n : Nat) (s : State) (h : stepCountOk s.sequencer n = true) : Whole s (setStepCount n s) := by
  simp only [stepCountOk, Bool.and_eq_true, decide_eq_true_eq, List.all_eq_true, List.mem_range, Bool.not_eq_true',
    Bool.and_eq_false_iff] at h
  obtain ⟨⟨⟨h1, h2⟩, h3⟩, h4⟩ := h
  have key : ∀ q : Sequencer, q.steps = s.sequencer.steps → q.stepCount = n → q.history = s.sequencer.history →
      q.stepIndex = s.sequencer.stepIndex → q.elapsed = s.sequencer.elapsed →
      (q.engaged = true → s.sequencer.engaged = true) → ScheduleSound s.sequencer → ScheduleSound q := by
    intro q e1 e2 e3 e4 e5 e6 hs
    have hsame : ∀ j, q.stepAt j = s.sequencer.stepAt j := fun j => by simp [Sequencer.stepAt, e1]
    refine ⟨fun j r => by rw [hsame]; exact hs.1 j r, by omega, fun j hj => by rw [hsame]; exact h3 j (by omega),
      by rw [e3]; exact hs.2.2.2.1, fun _ => by omega, fun he => ?_⟩
    obtain ⟨i, r, g1, g2, g3, g4, g5⟩ := hs.2.2.2.2.2 (e6 he)
    refine ⟨i, r, by rw [e4]; exact g1, ?_, by rw [hsame]; exact g3, by rw [e5]; exact g4, by rw [e3]; exact g5⟩
    rcases h4 with h4 | h4
    · rw [e6 he] at h4; cases h4
    · rw [g1] at h4
      simp only [Option.any_some, decide_eq_false_iff_not] at h4
      omega
  unfold setStepCount
  split
  · next hem =>
    refine Whole.trans ?_ (calm_scheduleNotice _).whole
    refine { outer_setSequencer _ s with sound := fun hc hs => ⟨?_, ?_⟩ }
    · unfold CausesSound at *
      rw [hem] at hc
      simpa using hc
    · exact key _ rfl rfl rfl rfl rfl (fun e => by simp [Sequencer.engaged] at e) hs
  · exact { outer_setSequencer _ s with sound := fun hc hs => ⟨hc, key _ rfl rfl rfl rfl rfl id hs⟩ }

/-- A record in range stored at an index that a RUNNING or HELD schedule has not reached. -/
theorem whole_storeStep (i : Fin 24) (r : StepRecord) (s : State) (hr : stepRecordOk r = true)
    (hi : stepReached s.sequencer i.val = false) : Whole s (storeStep i r s) := by
  refine { outer_setSequencer _ s with sound := fun hc hs => ⟨hc, ?_⟩ }
  obtain ⟨a1, a2, a3, a4, a5, a6⟩ := hs
  have at_i : ∀ j, (storeStep i r s).sequencer.stepAt j =
      if j = i.val then some r else s.sequencer.stepAt j := by
    intro j
    simp only [storeStep, State.setSequencer, Sequencer.stepAt, Vector.toList_set, List.getD_eq_getElem?_getD, List.getElem?_set, Vector.length_toList]
    by_cases hj : j = i.val
    · subst hj; simp
    · rw [if_neg (fun e => hj e.symm), if_neg hj]
  refine ⟨fun j x => ?_, a2, fun j hj => ?_, a4, a5, fun he => ?_⟩
  · rw [at_i]
    split
    · intro e; cases e; exact hr
    · exact a1 j x
  · rw [at_i]
    split
    · rfl
    · exact a3 j hj
  · obtain ⟨k, x, g1, g2, g3, g4, g5⟩ := a6 he
    refine ⟨k, x, g1, g2, ?_, g4, g5⟩
    rw [at_i, if_neg ?_]
    · exact g3
    · intro e
      have : s.sequencer.engaged = true := he
      simp [stepReached, this, g1, e] at hi

end Sys2Proof.Laws
end

