-- ==== Sys2Proof/Laws/PlantPolling.lean ====
section
/-! SUPPORT. `Plant` and its kin for the Probe Table, the Probe Poller and the line units. -/

namespace Sys2Proof.Laws

open Sys2Proof.Machine
open Sys2Proof.Safety

/-! ### The Probe Table -/

/-- A change of one probe entry that keeps its mapping. -/
theorem calm_setProbe (p : Fin 192) (e : ProbeEntry) (s : State) (h1 : e.mapping = (s.probe p).mapping)
    (h2 : e.isMapped = (s.probe p).isMapped) (h3 : Figured (s.probe p) → Figured e) : Calm s (s.setProbe p e) := by
  refine { Calm.refl s with maps := fun i => ?_ }
  by_cases h : p = i
  · subst h; simpa [h1, h2] using h3
  · simp [State.probe_setProbe_ne s p i e h]

/-- A change of every probe entry that keeps each mapping. -/
theorem calm_mapProbes (f : ProbeEntry → ProbeEntry) (s : State) (h1 : ∀ e, (f e).mapping = e.mapping)
    (h2 : ∀ e, (f e).isMapped = e.isMapped) (h3 : ∀ e, Figured e → Figured (f e)) :
    Calm s { s with probes := s.probes.map f } := by
  refine { Calm.refl s with maps := fun i => ?_ }
  simpa [State.probe, h1, h2] using h3 _

theorem departed_mapping (e : ProbeEntry) : e.departed.mapping = e.mapping := by
  unfold ProbeEntry.departed; split <;> rfl

theorem departed_isMapped (e : ProbeEntry) : e.departed.isMapped = e.isMapped := by
  unfold ProbeEntry.departed ProbeEntry.isMapped; split <;> simp_all <;> rfl

theorem resettled_isMapped (e : ProbeEntry) (h : e.isMapped = true) : e.resettled.isMapped = e.isMapped := by
  rw [h]; rfl

theorem returned_mapping (e : ProbeEntry) : e.returned.mapping = e.mapping := by
  unfold ProbeEntry.returned; split <;> rfl

theorem returned_isMapped (e : ProbeEntry) : e.returned.isMapped = e.isMapped := by
  unfold ProbeEntry.returned
  split
  · next h => exact resettled_isMapped e (by simp [ProbeEntry.isMapped, h])
  · rfl

theorem chargeReset_mapping (e : ProbeEntry) : e.chargeReset.mapping = e.mapping := by
  unfold ProbeEntry.chargeReset; split <;> (try split) <;> rfl

theorem chargeReset_isMapped (e : ProbeEntry) : e.chargeReset.isMapped = e.isMapped := by
  unfold ProbeEntry.chargeReset
  split
  · rfl
  · split
    · rfl
    · next h _ => exact resettled_isMapped e (by simp [ProbeEntry.isMapped, h])
  · next h _ => exact resettled_isMapped e (by simpa [ProbeEntry.isMapped] using h)

theorem departed_figured (e : ProbeEntry) (h : Figured e) : Figured e.departed := by
  unfold ProbeEntry.departed; split <;> simp_all [Figured]

theorem returned_figured (e : ProbeEntry) (h : Figured e) : Figured e.returned := by
  unfold ProbeEntry.returned; split
  · simp [Figured, ProbeEntry.resettled]
  · exact h

theorem chargeReset_figured (e : ProbeEntry) (h : Figured e) : Figured e.chargeReset := by
  unfold ProbeEntry.chargeReset
  split
  · exact h
  · split
    · exact h
    · simp [Figured, ProbeEntry.resettled]
  · simp [Figured, ProbeEntry.resettled]

theorem calm_nodeDeparted (n : Fin 16) (s : State) : Calm s (nodeDeparted n s) := by
  refine calm_mapProbes _ s (fun e => ?_) (fun e => ?_) (fun e h => ?_)
  · split
    · exact departed_mapping e
    · rfl
  · split
    · exact departed_isMapped e
    · rfl
  · split
    · exact departed_figured e h
    · exact h

theorem calm_nodeReturned (n : Fin 16) (s : State) : Calm s (nodeReturned n s) := by
  refine calm_mapProbes _ s (fun e => ?_) (fun e => ?_) (fun e h => ?_)
  · split
    · exact returned_mapping e
    · rfl
  · split
    · exact returned_isMapped e
    · rfl
  · split
    · exact returned_figured e h
    · exact h

/-- A judgement keeps the mapping of an entry that takes readings, and leaves it mapped. -/
theorem judged_mapping (j : JudgeRules) (e : ProbeEntry) (r : Reading) (c : Conversion) :
    (e.takeReading j r c).1.mapping = e.mapping := by
  unfold ProbeEntry.takeReading
  split
  · unfold judgeValid
    split
    · rfl
    · split <;> rfl
    · split
      · rfl
      · split <;> rfl
    · rfl
    · rfl
    · rfl
  · unfold judgeRejected
    split <;> rfl

theorem judged_isMapped (j : JudgeRules) (e : ProbeEntry) (r : Reading) (c : Conversion) (h : e.state.receives = true) :
    (e.takeReading j r c).1.isMapped = true := by
  unfold ProbeEntry.takeReading
  cases hs : e.state <;> simp [ProbeState.receives, hs] at h <;> split
  · simp only [judgeValid, settleAccept, ProbeEntry.isMapped]; split <;> rfl
  · simp only [judgeRejected, settleReject, ProbeEntry.isMapped]; split <;> rfl
  · simp only [judgeValid]
    split
    · rfl
    · simp only [activeReject, ProbeEntry.isMapped]; split <;> rfl
  · simp only [judgeRejected, activeReject, ProbeEntry.isMapped]; split <;> rfl
  · simp only [judgeValid]
    split
    · rfl
    · split
      · rfl
      · simp only [suspectReject, ProbeEntry.isMapped]; split <;> rfl
  · simp only [judgeRejected, suspectReject, ProbeEntry.isMapped]; split <;> rfl
  · simp [judgeValid, ProbeEntry.isMapped]
  · simp [judgeRejected, ProbeEntry.isMapped]

/-- R84: a judgement leaves a figure in every entry it leaves ACTIVE or SUSPECT. -/
theorem judged_figured (j : JudgeRules) (e : ProbeEntry) (r : Reading) (c : Conversion) (h : Figured e) :
    Figured (e.takeReading j r c).1 := by
  unfold ProbeEntry.takeReading
  cases hs : e.state <;> split <;> simp only [judgeValid, judgeRejected] <;>
    (try split) <;> (try split) <;>
    simp_all [Figured, settleAccept, settleReject, activeAccept, activeReject, suspectReturn, suspectRelevel, suspectReject]
  split <;> simp

theorem calm_raiseProbeFaults (p : Fin 192) (fs : List (FaultReason × Nat)) (s : State) :
    Calm s (raiseProbeFaults p fs s) := Calm.foldl (fun s _ => calm_raiseFault _ _ _ s) fs s

theorem calm_takeReading (p : Fin 192) (r : Reading) (s : State) : Calm s (takeReading p r s) := by
  unfold takeReading
  split
  · exact Calm.refl s
  · next m hm =>
    split
    · next hr =>
      refine Calm.trans (calm_setProbe p _ s ?_ ?_ (judged_figured _ _ _ _)) (calm_raiseProbeFaults p _ _)
      · exact judged_mapping _ _ _ _
      · rw [judged_isMapped _ _ _ _ hr]
        simp only [ProbeEntry.isMapped]
        cases hs : (s.probe p).state <;> simp [ProbeState.receives, hs] at hr <;> rfl
    · exact Calm.refl s

/-! ### The Probe Poller -/

/-- A change of one node entry that keeps its mask and leaves it VACANT or not. -/
theorem calm_setNode (n : Fin 16) (e : NodeEntry) (s : State) (h1 : e.mask = (s.node n).mask := by rfl)
    (h2 : e.state = .vacant ↔ (s.node n).state = .vacant := by exact Iff.rfl) : Calm s (s.setNode n e) := by
  refine { Calm.refl s with nodes := fun m => ?_ }
  by_cases h : n = m
  · subst h; simp [h1, h2]
  · simp [State.node_setNode_ne s n m e h]

theorem calm_setStaging (x : Option Staging) (s : State) : Calm s (s.setStaging x) :=
  { Outer.of_eq with sequencer := rfl }

theorem calm_markLost (n : Fin 16) (s : State) : Calm s (markLost n s) := by
  unfold markLost
  split
  · split
    · exact calm_setStaging _ s
    · exact Calm.refl s
  · exact Calm.refl s

theorem calm_abandonPolling (s : State) : Calm s (abandonPolling s) := { Outer.of_eq with sequencer := rfl }

theorem calm_sendScan (n : Fin 16) (k : Nat) (s : State) : Calm s (sendScan n k s) := by
  have h : Calm s (beginAttempt n k s) := { Outer.of_eq with sequencer := rfl }
  unfold sendScan
  dsimp only
  split
  · exact h.trans (calm_abandonPolling _)
  · exact h

theorem calm_beginVisit (n : Fin 16) (s : State) : Calm s (beginVisit n s) := by
  refine Calm.trans ?_ (calm_sendScan n 0 _)
  exact { Outer.of_eq with sequencer := rfl }

theorem calm_pollIdle (s : State) : Calm s (pollIdle s) := { Outer.of_eq with sequencer := rfl }

theorem whole_startCycle (s : State) : Whole s (startCycle s) := by
  have h : Calm s { s with poller := s.poller.cycleStarted (s.param .cyclePeriod) } :=
    { Outer.of_eq with sequencer := rfl }
  unfold startCycle
  dsimp only
  split
  · exact (h.trans (calm_beginVisit _ _)).whole
  · exact h.whole.trans ((whole_closeEstimate _).trans (calm_pollIdle _).whole)

theorem whole_closeCycle (s : State) : Whole s (closeCycle s) := by
  unfold closeCycle
  dsimp only
  split
  · exact (whole_closeEstimate s).trans (whole_startCycle _)
  · exact (whole_closeEstimate s).trans (calm_pollIdle _).whole

theorem whole_continueCycle (s : State) : Whole s (continueCycle s) := by
  unfold continueCycle
  split
  · exact (calm_beginVisit _ s).whole
  · exact whole_closeCycle s

theorem whole_endDrain (s : State) : Whole s (endDrain s) := by
  unfold endDrain
  split
  · exact whole_startCycle s
  · exact (calm_pollIdle s).whole

theorem whole_endVisit (s : State) : Whole s (endVisit s) := by
  unfold endVisit
  dsimp only
  split
  · exact (calm_setStaging none s).whole.trans (whole_continueCycle _)
  · exact (calm_setStaging none s).whole.trans (whole_endDrain _)
  · exact (calm_setStaging none s).whole

theorem calm_setOutcome (n : Fin 16) (o : ScanOutcome) (s : State) : Calm s (s.setOutcome n o) := calm_setNode n _ s

theorem calm_departNode (n : Fin 16) (s : State) (h : (s.node n).state ≠ .vacant) : Calm s (departNode n s) :=
  (calm_setNode n _ s (h2 := by simp [h])).trans (calm_nodeDeparted n _)

theorem calm_nodeMiss (n : Fin 16) (s : State) : Calm s (nodeMiss n s) := by
  unfold nodeMiss
  dsimp only
  refine (calm_setNode n { s.node n with misses := rise 15 (s.node n).misses } s).trans ?_
  split
  · next h =>
    split
    · exact (calm_departNode n _ (by simp [h])).trans (calm_raiseFault _ _ _ _)
    · exact Calm.refl _
  · exact calm_raiseFault _ _ _ _
  · exact Calm.refl _

theorem whole_retryOrMiss (st : Staging) (s : State) : Whole s (retryOrMiss st s) := by
  unfold retryOrMiss
  split
  · exact (calm_sendScan _ _ s).whole
  · exact (calm_nodeMiss _ s).whole.trans (whole_endVisit _)

theorem whole_attemptFails (st : Staging) (o : ScanOutcome) (s : State) : Whole s (attemptFails st o s) := by
  unfold attemptFails
  split
  · exact whole_endVisit s
  · split
    · exact (calm_setOutcome _ o s).whole.trans (whole_endVisit _)
    · exact (calm_setOutcome _ o s).whole.trans (whole_retryOrMiss st _)

theorem whole_failWaiting (o : ScanOutcome) (s : State) : Whole s (failWaiting o s) := by
  unfold failWaiting
  split
  · split
    · exact whole_attemptFails _ o s
    · exact Whole.refl s
  · exact Whole.refl s

theorem calm_returnNode (n : Fin 16) (s : State) : Calm s (returnNode n s) := by
  unfold returnNode
  split
  · next h => exact (calm_setNode n _ s (h2 := by simp [h])).trans (calm_nodeReturned n _)
  · exact Calm.refl s

theorem calm_marginalTest (n : Fin 16) (b : Bool) (s : State) : Calm s (marginalTest n b s) := by
  unfold marginalTest
  split
  · dsimp only
    split
    · exact (calm_setNode n _ s).trans (calm_raiseFault _ _ _ _)
    · exact calm_setNode n _ s
  · exact calm_setNode n _ s

theorem calm_temperatureTest (n : Fin 16) (t : Option NodeTemp) (s : State) : Calm s (temperatureTest n t s) := by
  unfold temperatureTest
  split
  · split
    · exact calm_raiseFault _ _ _ _
    · exact Calm.refl s
  · exact Calm.refl s

theorem calm_handEntry (n c : Fin 16) (es : List ChannelEntry) (s : State) : Calm s (handEntry n c es s) := by
  unfold handEntry
  split
  · exact calm_takeReading _ _ s
  · exact Calm.refl s

theorem calm_commitScan (st : Staging) (s : State) : Calm s (commitScan st s) :=
  (calm_setNode st.node ((s.node st.node).committed st.temp s.uptime) s).trans ((calm_returnNode st.node _).trans
    ((calm_marginalTest st.node st.noisy _).trans ((calm_temperatureTest st.node st.temp _).trans
      (Calm.foldl (fun s c => calm_handEntry st.node c st.entries s) _ _))))

theorem whole_commitCheck (st : Staging) (s : State) : Whole s (commitCheck st s) := by
  unfold commitCheck
  split
  · refine Whole.trans ?_ (whole_endVisit _)
    split
    · exact Whole.refl s
    · exact (calm_commitScan st s).whole
  · exact whole_attemptFails _ _ s

theorem whole_takePart (st : Staging) (p : SamplePart) (b : Bool) (s : State) : Whole s (takePart st p b s) := by
  unfold takePart
  dsimp only
  split
  · exact (calm_setStaging _ s).whole
  · split
    · exact whole_attemptFails _ _ s
    · split
      · exact (calm_setStaging _ s).whole.trans (whole_commitCheck _ _)
      · exact (calm_setStaging _ s).whole

theorem whole_screenSample (st : Staging) (p : List Byte) (b : Bool) (s : State) : Whole s (screenSample st p b s) := by
  unfold screenSample
  split
  · exact whole_attemptFails _ _ s
  · split
    · exact Whole.refl s
    · split
      · exact whole_takePart _ _ _ s
      · exact whole_attemptFails _ _ s

theorem whole_fieldDelivered (f : Frame) (b : Bool) (s : State) : Whole s (fieldDelivered f b s) := by
  unfold fieldDelivered
  split
  · exact Whole.refl s
  · split
    · exact Whole.refl s
    · split
      · exact Whole.refl s
      · split
        · exact Whole.refl s
        · exact whole_screenSample _ _ _ s

theorem calm_fieldSent (s : State) : Calm s (fieldSent s) := by
  unfold fieldSent
  split
  · exact calm_setStaging _ s
  · exact Calm.refl s

theorem whole_cycleTimerExpired (s : State) : Whole s (cycleTimerExpired s) := by
  unfold cycleTimerExpired
  split
  · exact whole_startCycle s
  · exact Calm.whole { Outer.of_eq with sequencer := rfl }
  · exact Whole.refl s

theorem whole_fieldStarted (s : State) : Whole s (fieldStarted s) := by
  have h : Calm s (s.setFieldState .running) := { Outer.of_eq with sequencer := rfl }
  unfold fieldStarted
  dsimp only
  split
  · exact h.whole.trans (whole_startCycle _)
  · exact h.whole.trans (Calm.whole { Outer.of_eq with sequencer := rfl })
  · exact h.whole

theorem calm_fieldHalted (s : State) : Calm s (fieldHalted s) := { Outer.of_eq with sequencer := rfl }

theorem whole_pollerRestart (s : State) : Whole s (pollerRestart s) := by
  unfold pollerRestart
  dsimp only
  split
  · exact (calm_abandonPolling s).whole.trans (whole_startCycle _)
  · exact (calm_abandonPolling s).whole

/-! ### The line units -/

theorem calm_setUnit (l : PairLine) (u : PairUnit) (s : State) : Calm s (s.setUnit l u) := by
  cases l <;> exact { Outer.of_eq with sequencer := rfl }

theorem whole_reportDiscard (l : Line) (s : State) : Whole s (reportDiscard l s) := by
  cases l
  · exact whole_failWaiting _ s
  · exact (calm_noAnswer s).whole
  · exact Whole.refl s

theorem calm_reportSent (l : PairLine) (s : State) : Calm s (reportSent l s) := by
  cases l
  · exact calm_fieldSent s
  · exact calm_driveSent s

theorem calm_ownerFault (l : PairLine) (s : State) : Calm s (ownerFault l s) := by
  cases l
  · exact calm_abandonPolling s
  · exact calm_abandonExchange s

theorem plant_tellFault (l : PairLine) (o : FaultOrder) (s : State) : Plant s (tellFault l o s) := by
  have h1 := fun s => (calm_ownerFault l s).plant
  have h2 := fun s => plant_addCause (lineCause l) s
  have h3 : ∀ s, Plant s (recordStuck l s) := fun s => (calm_raiseFault _ _ _ s).plant
  cases o
  · exact (h1 s).trans ((h2 _).trans (h3 _))
  · exact (h1 s).trans ((h3 _).trans (h2 _))
  · exact (h2 s).trans ((h1 _).trans (h3 _))
  · exact (h2 s).trans ((h3 _).trans (h1 _))
  · exact (h3 s).trans ((h1 _).trans (h2 _))
  · exact (h3 s).trans ((h2 _).trans (h1 _))

theorem plant_stuckExpired (l : PairLine) (o : FaultOrder) (s : State) : Plant s (stuckExpired l o s) := by
  unfold stuckExpired
  split
  · exact Plant.refl s
  · split
    · exact Plant.refl s
    · exact (calm_setUnit l _ s).plant.trans (plant_tellFault l o _)

theorem whole_ownerRestart (l : PairLine) (s : State) : Whole s (ownerRestart l s) := by
  cases l
  · exact whole_pollerRestart s
  · exact ((calm_abandonExchange s).trans (calm_openExchange _)).whole

theorem whole_restartLine (l : PairLine) (s : State) : Whole s (restartLine l s) := by
  have h := (calm_setUnit l ((s.unit l).restarted s.stuckLimit) s).whole.trans (whole_ownerRestart l _)
  unfold restartLine
  dsimp only
  split
  · exact h.trans (plant_removeCause _ _).whole
  · exact h

/-- The gap limit on a pair line, where the Kiln unit is not concerned. -/
theorem whole_gapExpired (l : PairLine) (s : State) : Whole s (gapExpired (lineOf l) s) := by
  unfold gapExpired
  split
  · exact Whole.refl s
  · refine Whole.trans ?_ (whole_reportDiscard (lineOf l) _)
    cases l <;> exact Calm.whole { Outer.of_eq with sequencer := rfl }

theorem whole_startTransmit (l : PairLine) (s : State) : Whole s (startTransmit l s) := by
  unfold startTransmit
  split
  · split
    · exact Whole.refl s
    · exact (calm_setUnit l _ s).whole.trans (whole_gapExpired l _)
  · exact Whole.refl s

theorem calm_endTransmit (l : PairLine) (s : State) : Calm s (endTransmit l s) := by
  unfold endTransmit
  split
  · exact (calm_setUnit l _ s).trans (calm_reportSent l _)
  · exact Calm.refl s

/-- A character on a pair line. -/
theorem whole_receiveCharacter (l : PairLine) (c : RxChar) (s : State) : Whole s (receiveCharacter (lineOf l) c s) := by
  unfold receiveCharacter
  split
  · have h1 : Whole s (s.afterChar (lineOf l) c) := by
      cases l <;> exact Calm.whole { Outer.of_eq with sequencer := rfl }
    have hb : ∀ t, breakReport (lineOf l) c t = t := fun t => by
      unfold breakReport; cases l <;> simp [lineOf]
    rw [hb]
    refine h1.trans ?_
    unfold feedCharacter
    dsimp only
    refine Whole.trans (t := (s.afterChar (lineOf l) c).setAssembler (lineOf l)
      (assemble ((s.afterChar (lineOf l) c).assemblerOf (lineOf l)) c).1) ?_ ?_
    · cases l <;> exact Calm.whole { Outer.of_eq with sequencer := rfl }
    · unfold applyEvent
      split
      · exact Whole.refl _
      · refine Whole.trans ?_ (whole_reportDiscard (lineOf l) _)
        cases l <;> exact Calm.whole { Outer.of_eq with sequencer := rfl }
      · cases l
        · exact whole_fieldDelivered _ _ _
        · exact (calm_driveDelivered _ _).whole
  · exact Whole.refl s

/-! ### Charge Reset -/

theorem chargeReset_node (e : NodeEntry) :
    e.chargeReset.mask = e.mask ∧ (e.chargeReset.state = .vacant ↔ e.state = .vacant) := by
  refine ⟨rfl, ?_⟩
  simp only [NodeEntry.chargeReset]
  split
  · next h => simp [h]
  · exact Iff.rfl

theorem whole_chargeReset (s : State) : Whole s (chargeReset s) := by
  have h1 : Outer s (chargeResetValues s) :=
    { Outer.refl s with
      maps := fun i => by
        simpa [chargeResetValues, State.probe, chargeReset_mapping, chargeReset_isMapped] using chargeReset_figured _
      nodes := fun n => by simpa [chargeResetValues, State.node] using chargeReset_node _ }
  have h2 : Whole s (chargeResetValues s) := by
    refine { h1 with sound := fun _ hs => ⟨?_, ?_⟩ }
    · show CausesSound s.sequencer.chargeReset
      simp only [CausesSound, Sequencer.chargeReset, noCauses, Causes.isEmpty]
      split <;> simp
    · show ScheduleSound s.sequencer.chargeReset
      refine ⟨hs.1, hs.2.1, hs.2.2.1, by simp [Sequencer.chargeReset], fun h => ?_, fun h => ?_⟩
      · simp only [Sequencer.chargeReset] at h ⊢
        by_cases h0 : s.sequencer.stepCount = 0
        · rw [if_pos h0] at h; cases h
        · omega
      · simp only [engaged_iff, Sequencer.chargeReset] at h
        by_cases h0 : s.sequencer.stepCount = 0 <;> simp [h0] at h
  unfold chargeReset
  dsimp only
  split
  · exact h2
  · exact h2.trans ((calm_scheduleNotice _).trans (calm_tellZones _)).whole

end Sys2Proof.Laws
end

