-- ==== Sys2Proof/Laws/Queue.lean ====
section
/-! SUPPORT. The Drive Queue as a whole (R136, R138): where frames of distinct zones stand after they have entered it, and
when the oldest is handed over. -/

namespace Sys2Proof.Laws

open Sys2Proof.Machine
open Sys2Proof.Safety

/-- R136: a placement in a queue with one frame at most for a zone: in place, or at the back. -/
theorem placeFrame_eq (q : QueuedFrame) (l : List QueuedFrame) (h : (l.map (·.zone)).Nodup) :
    placeFrame q l = l.map (fun x => if x.zone = q.zone then q else x) ++
      if l.all (fun x => x.zone != q.zone) then [q] else [] := by
  induction l with
  | nil => simp [placeFrame]
  | cons x xs ih =>
    rw [List.map_cons, List.nodup_cons] at h
    unfold placeFrame
    by_cases hx : x.zone = q.zone
    · have same : ∀ y ∈ xs, (if y.zone = q.zone then q else y) = id y := fun y hy =>
        if_neg fun e => h.1 (List.mem_map.2 ⟨y, hy, e.trans hx.symm⟩)
      rw [List.map_cons, List.map_congr_left same]
      simp [hx]
    · rw [if_neg hx, ih h.2]
      simp [hx]

/-- R136: the placements of frames of distinct zones, in order. -/
theorem placeFrames_eq (qs l : List QueuedFrame) (hq : (qs.map (·.zone)).Nodup) (hl : (l.map (·.zone)).Nodup) :
    qs.foldl (fun l q => placeFrame q l) l =
      l.map (fun x => (qs.find? fun q => q.zone == x.zone).getD x) ++
        qs.filter fun q => l.all fun x => x.zone != q.zone := by
  induction qs generalizing l with
  | nil => simp
  | cons q qs ih =>
    rw [List.map_cons, List.nodup_cons] at hq
    rw [List.foldl_cons, ih _ hq.2 (nodup_placeFrame q l hl), placeFrame_eq q l hl]
    have free : ∀ p ∈ qs, q.zone ≠ p.zone := fun p hp e => hq.1 (List.mem_map.2 ⟨p, hp, e.symm⟩)
    have none_q : (qs.find? fun p => p.zone == q.zone) = none := by
      rw [List.find?_eq_none]
      intro p hp
      simpa using fun e => free p hp e.symm
    have filt : (qs.filter fun p => (l.map (fun x => if x.zone = q.zone then q else x) ++
        if l.all (fun x => x.zone != q.zone) then [q] else []).all fun x => x.zone != p.zone) =
        qs.filter fun p => l.all fun x => x.zone != p.zone := by
      refine List.filter_congr fun p hp => ?_
      have e : ∀ x : QueuedFrame, (if x.zone = q.zone then q else x).zone = x.zone := by
        intro x; split
        · next h => exact h.symm
        · rfl
      rw [List.all_append, List.all_map]
      simp only [Function.comp_def, e]
      split <;> simp [free p hp]
    rw [filt, List.map_append, List.map_map]
    have m : ∀ x ∈ l, ((fun x => (qs.find? fun p => p.zone == x.zone).getD x) ∘
        fun x => if x.zone = q.zone then q else x) x = ((q :: qs).find? fun p => p.zone == x.zone).getD x := by
      intro x _
      by_cases hx : x.zone = q.zone
      · simp [hx, none_q]
      · rw [List.find?_cons_of_neg (by simpa using fun e : q.zone = x.zone => hx e.symm)]
        simp [hx]
    rw [List.map_congr_left m, List.append_assoc, List.filter_cons]
    split <;> simp [none_q]

theorem openExchange_settled {s : State}
    (h : s.zones.exchange ≠ none ∨ s.drive.lineState ≠ .running ∨ s.zones.queue = []) : openExchange s = s := by
  unfold openExchange
  split
  · next h1 h2 => rcases h with h | h | h <;> simp_all
  · rfl

/-- R138: a frame handed over leaves no other to be handed over. -/
theorem openExchange_idem (s : State) : openExchange (openExchange s) = openExchange s := by
  by_cases h : s.zones.exchange ≠ none ∨ s.drive.lineState ≠ .running ∨ s.zones.queue = []
  · rw [openExchange_settled h, openExchange_settled h]
  · push Not at h
    obtain ⟨h1, h2, h3⟩ := h
    obtain ⟨q, rest, hq⟩ := List.exists_cons_of_ne_nil h3
    refine openExchange_settled (.inl ?_)
    simp [openExchange, h1, h2, hq]

/-- A frame of one of these zones may enter the queue of `s` before or after the hand-over that is due. -/
def Later (s : State) (zones : List (Fin 8)) : Prop :=
  s.zones.exchange ≠ none ∨ s.drive.lineState ≠ .running ∨ ∀ p ∈ s.zones.queue.head?, p.zone ∉ zones

theorem enqueueFrame_eq (q : QueuedFrame) (s : State) (h : Later s [q.zone]) :
    enqueueFrame q s = openExchange (s.setQueue (placeFrame q s.zones.queue)) := by
  by_cases h' : s.zones.exchange ≠ none ∨ s.drive.lineState ≠ .running ∨ s.zones.queue = []
  · unfold enqueueFrame; rw [openExchange_settled h']
  · push Not at h'
    obtain ⟨h1, h2, h3⟩ := h'
    obtain ⟨p, rest, hp⟩ := List.exists_cons_of_ne_nil h3
    have hz : p.zone ≠ q.zone := by
      rcases h with h | h | h
      · exact absurd h1 h
      · exact absurd h2 h
      · simpa [hp] using h
    simp [enqueueFrame, openExchange, State.setQueue, h1, h2, hp, placeFrame, hz]

theorem later_place {s : State} {q : QueuedFrame} {zones : List (Fin 8)} (h : Later s (q.zone :: zones))
    (hq : q.zone ∉ zones) : Later (s.setQueue (placeFrame q s.zones.queue)) zones := by
  rcases h with h | h | h
  · exact .inl h
  · exact .inr (.inl h)
  · refine .inr (.inr ?_)
    rcases hl : s.zones.queue with _ | ⟨p, rest⟩
    · simpa [State.setQueue, placeFrame] using hq
    · have hp : p.zone ∉ q.zone :: zones := h p (by rw [hl]; rfl)
      simp only [List.mem_cons, not_or] at hp
      simpa [State.setQueue, placeFrame, hp.1] using hp.2

/-- R136, R138: frames of distinct zones that enter the Drive Queue one after another: all are placed, and the oldest frame
is handed over where that is due. -/
theorem enqueueFrames_eq (qs : List QueuedFrame) (s : State) (hq : (qs.map (·.zone)).Nodup)
    (h : Later s (qs.map (·.zone))) :
    openExchange (qs.foldl (fun s q => enqueueFrame q s) s) =
      openExchange (s.setQueue (qs.foldl (fun l q => placeFrame q l) s.zones.queue)) := by
  induction qs generalizing s with
  | nil => rfl
  | cons q qs ih =>
    rw [List.map_cons] at hq h
    rw [List.nodup_cons] at hq
    have one : Later s [q.zone] := by
      rcases h with h | h | h
      · exact .inl h
      · exact .inr (.inl h)
      · refine .inr (.inr fun p hp hm => h p hp ?_)
        rw [List.mem_singleton.1 hm]; exact List.mem_cons_self ..
    have again : ∀ (qs : List QueuedFrame) (t : State),
        openExchange (qs.foldl (fun s q => enqueueFrame q s) (openExchange t)) =
          openExchange (qs.foldl (fun s q => enqueueFrame q s) t) := by
      rintro (_ | ⟨p, ps⟩) t
      · exact openExchange_idem t
      · simp only [List.foldl_cons, enqueueFrame, openExchange_idem]
    rw [List.foldl_cons, enqueueFrame_eq q s one, again, ih _ hq.2 (later_place h hq.1)]
    rfl

end Sys2Proof.Laws
end

