-- ==== Sys2Proof/Laws/Ranking.lean ====
section
/-! SUPPORT. The Wet Ranking's order (R85) and rounded means (R86). -/

namespace Sys2Proof.Laws

open Sys2Proof.Machine
open Sys2Proof.Safety

/-- R85: the order of the ranking. -/
def Before (x y : RankEntry) : Prop := y.mc < x.mc ∨ (x.mc = y.mc ∧ x.probe < y.probe)

theorem placeRank_perm (x : RankEntry) (l : List RankEntry) : (placeRank x l).Perm (x :: l) := by
  induction l with
  | nil => exact .refl _
  | cons y ys ih =>
    simp only [placeRank]; split
    · exact .refl _
    · exact (ih.cons y).trans (.swap x y ys)

theorem placeRank_sorted (x : RankEntry) (l : List RankEntry) (h : l.Pairwise Before) (hx : ∀ y ∈ l, y.probe < x.probe) :
    (placeRank x l).Pairwise Before := by
  induction l with
  | nil => simp [placeRank]
  | cons y ys ih =>
    rw [List.pairwise_cons] at h
    simp only [placeRank]; split
    · next hm =>
      rw [List.pairwise_cons]
      refine ⟨fun z hz => ?_, List.pairwise_cons.2 h⟩
      rcases List.mem_cons.1 hz with rfl | hz
      · exact .inl hm
      · left; rcases h.1 z hz with h1 | ⟨h1, _⟩ <;> omega
    · next hm =>
      rw [List.pairwise_cons]
      refine ⟨fun z hz => ?_, ih h.2 fun z hz => hx z (List.mem_cons_of_mem _ hz)⟩
      rcases List.mem_cons.1 ((placeRank_perm x ys).mem_iff.1 hz) with rfl | hz
      · have := hx y (List.mem_cons_self ..)
        unfold Before; omega
      · exact h.1 z hz

theorem rankOf_aux (xs acc : List RankEntry) (hs : acc.Pairwise Before) (hx : xs.Pairwise fun a b => a.probe < b.probe)
    (ha : ∀ a ∈ acc, ∀ b ∈ xs, a.probe < b.probe) :
    (xs.foldl (fun r x => placeRank x r) acc).Pairwise Before ∧
      (xs.foldl (fun r x => placeRank x r) acc).Perm (acc ++ xs) := by
  induction xs generalizing acc with
  | nil => simpa using hs
  | cons x xs ih =>
    rw [List.pairwise_cons] at hx
    have p1 := placeRank_perm x acc
    obtain ⟨h1, h2⟩ := ih (placeRank x acc) (placeRank_sorted x acc hs fun y hy => ha y hy x (List.mem_cons_self ..))
      hx.2 (by
      intro a h b hb
      rcases List.mem_cons.1 (p1.mem_iff.1 h) with rfl | h
      · exact hx.1 b hb
      · exact ha a h b (List.mem_cons_of_mem _ hb))
    refine ⟨h1, h2.trans ?_⟩
    exact (p1.append_right xs).trans (by simpa using (List.perm_middle (a := x) (l₁ := acc) (l₂ := xs)).symm)

theorem contribution_probe {p : Fin 192} {e : ProbeEntry} {x : RankEntry} (h : contribution p e = some x) : x.probe = p := by
  unfold contribution at h; split at h <;> simp_all <;> (rw [← h])

theorem contributors_pairwise (s : State) : (contributors s).Pairwise fun a b => a.probe < b.probe := by
  unfold contributors
  rw [List.pairwise_filterMap]
  refine List.Pairwise.imp ?_ (List.pairwise_lt_finRange 192)
  intro a b hab x hx y hy
  rw [contribution_probe hx, contribution_probe hy]; exact hab

theorem rankOf_sorted (s : State) : (rankOf (contributors s)).Pairwise Before :=
  (rankOf_aux _ [] .nil (contributors_pairwise s) (by simp)).1

theorem rankOf_perm (s : State) : (rankOf (contributors s)).Perm (contributors s) := by
  simpa [rankOf] using (rankOf_aux _ [] .nil (contributors_pairwise s) (by simp)).2

theorem mean_rounded (xs : List Nat) (h : xs ≠ []) : RoundedMean (meanOf xs) xs := by
  refine ⟨h, ?_⟩
  have hl : 0 < xs.length := List.length_pos_iff.2 h
  unfold meanOf roundDiv
  rw [if_pos (by omega)]
  generalize xs.sum = a
  generalize xs.length = n at hl
  have whole : ((2 * (a : Int) + (n : Int)) / (2 * (n : Int))).toNat = (2 * a + n) / (2 * n) := by
    rw [show 2 * (a : Int) + (n : Int) = ((2 * a + n : Nat) : Int) by push_cast; ring,
      show 2 * (n : Int) = ((2 * n : Nat) : Int) by push_cast; ring, ← Int.natCast_ediv]
    exact Int.toNat_natCast _
  rw [whole]
  have := Nat.div_add_mod (2 * a + n) (2 * n)
  have := Nat.mod_lt (2 * a + n) (show 0 < 2 * n by omega)
  constructor
  · omega
  · rw [Nat.mul_add]; omega

/-- A rounded mean of figures within whole bounds lies within them (R89). -/
theorem mean_between {c a b : Nat} {xs : List Nat} (h : RoundedMean c xs) (ha : ∀ x ∈ xs, a ≤ x)
    (hb : ∀ x ∈ xs, x ≤ b) : a ≤ c ∧ c ≤ b := by
  obtain ⟨h0, h1, h2⟩ := h
  have hl : 0 < xs.length := List.length_pos_iff.2 h0
  have e1 : xs.length * a ≤ xs.sum := by simpa [mul_comm] using List.card_nsmul_le_sum xs a ha
  have e2 : xs.sum ≤ xs.length * b := by simpa [mul_comm] using List.sum_le_card_nsmul xs b hb
  constructor
  · by_contra hc
    have : xs.length * (c + 1) ≤ xs.length * a := Nat.mul_le_mul_left _ (by omega)
    nlinarith
  · by_contra hc
    have : xs.length * (b + 1) ≤ xs.length * c := Nat.mul_le_mul_left _ (by omega)
    nlinarith

end Sys2Proof.Laws
end

