-- ==== Sys2Proof/Laws/Requests.lean ====
section
/-! SUPPORT. What taking and answering the front frame of the intake queue does (R160 to R162), once for every
request. -/

namespace Sys2Proof.Laws

open Sys2Proof.Machine
open Sys2Proof.Safety

/-- R160: no frame is taken while the reply place is full or the queue empty, nor one that the step does not name. -/
theorem serveFront_idle (accepts : KilnFrame → Bool) (body : KilnFrame → State → Answer) (s : State)
    (h : ∀ f rest, AtFront s f rest → accepts f = false) : serveFront accepts body s = s := by
  unfold serveFront State.front
  cases hr : s.handler.replyPlace with
  | some r => rfl
  | none =>
    cases hi : s.handler.intake with
    | nil => rfl
    | cons f rest => simp [h f rest ⟨hr, hi⟩]

/-- R160, R161: the front frame executed and answered DONE. -/
theorem serveFront_ok {accepts : KilnFrame → Bool} {body : KilnFrame → State → Answer} {s : State} {f : KilnFrame}
    {rest : List KilnFrame} {x : Executed} (h : AtFront s f rest) (ha : accepts f = true)
    (hb : body f (Taken s rest) = .ok x) (hx : x.state.handler = (Taken s rest).handler) :
    serveFront accepts body s = AnsweredWith x.clamped s f rest x.data x.state := by
  obtain ⟨hr, hi⟩ := h
  have hb' : body f (s.setHandler (s.handler.taken rest)) = .ok x := hb
  simp only [serveFront, State.front, hr, hi, ha, if_true, hb', answerFrame, placeReply, AnsweredWith, handlerAfter]
  cases hg : f.cls.isGroup <;> cases hxs : x.state <;>
    simp_all [State.setHandler, Taken, replyTo, donePayload, doneHead, kindDone]

/-- R161, R162: the front frame refused; nothing but the Handler changes. -/
theorem serveFront_refused {accepts : KilnFrame → Bool} {body : KilnFrame → State → Answer} {s : State} {f : KilnFrame}
    {rest : List KilnFrame} {why : RefusalReason} (h : AtFront s f rest) (ha : accepts f = true)
    (hb : body f (Taken s rest) = .error why) :
    serveFront accepts body s = Refused s f rest (BitVec.ofNat 8 why.code) := by
  obtain ⟨hr, hi⟩ := h
  have hb' : body f (s.setHandler (s.handler.taken rest)) = .error why := hb
  simp only [serveFront, State.front, hr, hi, ha, if_true, hb', answerFrame, placeReply, Refused, handlerAfter]
  cases hg : f.cls.isGroup <;> simp [State.setHandler, Handler.taken, Config.intakeLow, replyTo, refusedPayload, kindRefused, hr]

theorem isRequest_of_asked {s : State} {k : Byte} {f : KilnFrame} {rest : List KilnFrame} (h : Asked s k f rest) :
    isRequest k f = true := by simp [isRequest, h.2.1, h.2.2]

/-- A request of its kind executed and answered DONE. -/
theorem serveRequest_ok {k : Byte} {body : List Byte → State → Answer} {s : State} {f : KilnFrame}
    {rest : List KilnFrame} {x : Executed} (h : Asked s k f rest) (hb : body f.payload (Taken s rest) = .ok x)
    (hx : x.state.handler = (Taken s rest).handler) :
    serveRequest k body s = AnsweredWith x.clamped s f rest x.data x.state :=
  serveFront_ok h.1 (isRequest_of_asked h) hb hx

/-- A request of its kind answered DONE with CLAMPED clear. -/
theorem serveRequest_done {k : Byte} {body : List Byte → State → Answer} {s t : State} {f : KilnFrame}
    {rest : List KilnFrame} {data : List Byte} (h : Asked s k f rest) (hb : body f.payload (Taken s rest) = done t data)
    (hx : t.handler = (Taken s rest).handler) : serveRequest k body s = Answered s f rest data t :=
  serveRequest_ok h hb hx

/-- A request of its kind that reads and changes nothing. -/
theorem serveRequest_read {k : Byte} {body : List Byte → State → Answer} {s : State} {f : KilnFrame}
    {rest : List KilnFrame} {data : List Byte} (h : Asked s k f rest)
    (hb : body f.payload (Taken s rest) = done (Taken s rest) data) :
    serveRequest k body s = Answered s f rest data s := (serveRequest_done h hb rfl).trans rfl

/-- A request of its kind refused. -/
theorem serveRequest_refused {k : Byte} {body : List Byte → State → Answer} {s : State} {f : KilnFrame}
    {rest : List KilnFrame} {why : RefusalReason} (h : Asked s k f rest)
    (hb : body f.payload (Taken s rest) = .error why) :
    serveRequest k body s = Refused s f rest (BitVec.ofNat 8 why.code) :=
  serveFront_refused h.1 (isRequest_of_asked h) hb

end Sys2Proof.Laws
end

