-- ==== Sys2Proof/Laws/RequestBodies.lean ====
section
/-! SUPPORT. What the body of each request keeps of the conditions of Safety, request by request. -/

namespace Sys2Proof.Laws

open Sys2Proof.Machine
open Sys2Proof.Safety

/-- The intake queue and KL_RDY are the same. -/
def SameIntake (s t : State) : Prop := t.handler.intake = s.handler.intake ∧ t.handler.klRdy = s.handler.klRdy

theorem Outer.same {s t : State} (h : Outer s t) : SameIntake s t := by
  constructor <;> rw [h.handler]

/-- What every request body keeps, from the state it is given to the state it leaves. -/
structure Kept (s t : State) : Prop where
  same : SameIntake s t
  notices : NoticesSound s.notices → NoticesSound t.notices
  faults : FaultsSound s.faults → FaultsSound t.faults
  queue : QueueSound s.zones → QueueSound t.zones
  params : ParamsSound s.params → ParamsSound t.params
  curves : CurvesSound s.curves → CurvesSound t.curves
  probes : ProbesSound s.probes → ProbesSound t.probes
  nodes : ProbesSound s.probes → NodesSound s.poller.nodes s.probes → NodesSound t.poller.nodes t.probes
  figures : FiguresSound s.probes → FiguresSound t.probes
  sound : CausesSound s.sequencer → ScheduleSound s.sequencer → CausesSound t.sequencer ∧ ScheduleSound t.sequencer

theorem Kept.refl (s : State) : Kept s s := ⟨⟨rfl, rfl⟩, id, id, id, id, id, id, fun _ h => h, id, fun a b => ⟨a, b⟩⟩

theorem probesSound_of_maps {s t : State}
    (maps : ∀ i : Fin 192, (t.probe i).mapping = (s.probe i).mapping ∧ (t.probe i).isMapped = (s.probe i).isMapped) :
    ProbesSound s.probes → ProbesSound t.probes := by
  intro ⟨h1, h2⟩
  refine ⟨fun i => ?_, fun i j a b ha hb => ?_⟩
  · have := maps i; simp only [State.probe] at this; rw [this.1, this.2]; exact h1 i
  · have := maps i; have h' := maps j; simp only [State.probe] at this h'
    rw [this.1] at ha; rw [h'.1] at hb; exact h2 i j a b ha hb

theorem nodesSound_of_maps {s t : State} (maps : ∀ i : Fin 192, (t.probe i).mapping = (s.probe i).mapping)
    (nodes : ∀ n : Fin 16, (t.node n).mask = (s.node n).mask ∧
      ((t.node n).state = .vacant ↔ (s.node n).state = .vacant)) :
    NodesSound s.poller.nodes s.probes → NodesSound t.poller.nodes t.probes := by
  intro h n
  simp only [State.probe, State.node] at maps nodes
  simpa only [maps, nodes] using h n

theorem Whole.kept {s t : State} (h : Whole s t) : Kept s t where
  same := h.toOuter.same
  notices := h.notices
  faults := h.faults
  queue := h.queue
  params := by rw [h.params]; exact id
  curves := by rw [h.curves]; exact id
  probes := probesSound_of_maps fun i => ⟨(h.maps i).1, (h.maps i).2.1⟩
  nodes := fun _ => nodesSound_of_maps (fun i => (h.maps i).1) h.nodes
  figures := fun hf i => (h.maps i).2.2 (hf i)
  sound := h.sound

theorem Calm.kept {s t : State} (h : Calm s t) : Kept s t := h.whole.kept

theorem Kept.trans {s t u : State} (h : Kept s t) (k : Kept t u) : Kept s u where
  same := ⟨k.same.1.trans h.same.1, k.same.2.trans h.same.2⟩
  notices := k.notices ∘ h.notices
  faults := k.faults ∘ h.faults
  queue := k.queue ∘ h.queue
  params := k.params ∘ h.params
  curves := k.curves ∘ h.curves
  probes := k.probes ∘ h.probes
  nodes := fun hp hn => k.nodes (h.probes hp) (h.nodes hp hn)
  figures := k.figures ∘ h.figures
  sound := fun a b => k.sound (h.sound a b).1 (h.sound a b).2

/-- A request body keeps all of it when it is carried out. -/
def BodyKept (body : List Byte → State → Answer) : Prop := ∀ p s x, body p s = .ok x → Kept s x.state

theorem bodyKept_read {body : List Byte → State → Answer} (h : ∀ p s x, body p s = .ok x → x.state = s) : BodyKept body := by
  intro p s x hx; rw [h p s x hx]; exact Kept.refl s

theorem kept_identify : BodyKept identifyBody := by
  apply bodyKept_read
  intro p s x hx
  dsimp only [identifyBody, done] at hx
  split at hx <;> first | (cases hx; rfl) | cases hx

theorem kept_readLineStatus : BodyKept readLineStatusBody := by
  apply bodyKept_read
  intro p s x hx
  dsimp only [readLineStatusBody, done] at hx
  split at hx <;> first | (cases hx; rfl) | cases hx

theorem kept_readConfig : BodyKept readConfigBody := by
  apply bodyKept_read
  intro p s x hx
  dsimp only [readConfigBody, done] at hx
  split at hx <;> (try split at hx) <;> first | (cases hx; rfl) | cases hx

theorem kept_readCurve : BodyKept readCurveBody := by
  apply bodyKept_read
  intro p s x hx
  dsimp only [readCurveBody, done] at hx
  split at hx <;> (try split at hx) <;> first | (cases hx; rfl) | cases hx

theorem kept_readProbe : BodyKept readProbeBody := by
  apply bodyKept_read
  intro p s x hx
  dsimp only [readProbeBody, done] at hx
  split at hx <;> (try split at hx) <;> first | (cases hx; rfl) | cases hx

theorem kept_readNode : BodyKept readNodeBody := by
  apply bodyKept_read
  intro p s x hx
  dsimp only [readNodeBody, done] at hx
  split at hx <;> (try split at hx) <;> first | (cases hx; rfl) | cases hx

theorem kept_readEstimate : BodyKept readEstimateBody := by
  apply bodyKept_read
  intro p s x hx
  dsimp only [readEstimateBody, done] at hx
  split at hx <;> first | (cases hx; rfl) | cases hx

theorem kept_readRanking : BodyKept readRankingBody := by
  apply bodyKept_read
  intro p s x hx
  dsimp only [readRankingBody, done] at hx
  split at hx <;> (try split at hx) <;> first | (cases hx; rfl) | cases hx

theorem kept_readStep : BodyKept readStepBody := by
  apply bodyKept_read
  intro p s x hx
  dsimp only [readStepBody, done] at hx
  split at hx <;> (try split at hx) <;> first | (cases hx; rfl) | cases hx

theorem kept_readSchedule : BodyKept readScheduleBody := by
  apply bodyKept_read
  intro p s x hx
  dsimp only [readScheduleBody, done] at hx
  split at hx <;> first | (cases hx; rfl) | cases hx

theorem kept_readHistory : BodyKept readHistoryBody := by
  apply bodyKept_read
  intro p s x hx
  dsimp only [readHistoryBody, done] at hx
  split at hx <;> (try split at hx) <;> first | (cases hx; rfl) | cases hx

theorem kept_readEnvelope : BodyKept readEnvelopeBody := by
  apply bodyKept_read
  intro p s x hx
  dsimp only [readEnvelopeBody, done] at hx
  split at hx <;> first | (cases hx; rfl) | cases hx

theorem kept_readZone : BodyKept readZoneBody := by
  apply bodyKept_read
  intro p s x hx
  dsimp only [readZoneBody, done] at hx
  split at hx <;> (try split at hx) <;> first | (cases hx; rfl) | cases hx

theorem kept_readFault : BodyKept readFaultBody := by
  apply bodyKept_read
  intro p s x hx
  dsimp only [readFaultBody, done] at hx
  split at hx <;> (try split at hx) <;> first | (cases hx; rfl) | cases hx

theorem paramLows_le : ∀ i : Fin 23, paramLows[i] ≤ paramHighs[i] := by decide

theorem kept_setConfig : BodyKept setConfigBody := by
  intro p s x hx
  unfold setConfigBody at hx
  split at hx
  · split at hx
    · cases hx
    · next id hi lo i _ =>
      cases hx
      refine { Kept.refl s with params := fun h j => ?_ }
      dsimp only
      simp only [Fin.getElem_fin, Vector.getElem_set]
      split
      · next hh =>
        have : i = j := Fin.ext hh
        subst this
        have := paramLows_le i
        simp only [paramTaken, Fin.getElem_fin] at *
        omega
      · exact h j
  · cases hx

theorem kept_setAddressSlot : BodyKept setAddressSlotBody := by
  intro p s x hx
  unfold setAddressSlotBody at hx
  split at hx
  · split at hx
    · cases hx
    · cases hx; exact { Kept.refl s with same := ⟨rfl, rfl⟩ }
  · cases hx

theorem kept_lineRestart : BodyKept lineRestartBody := by
  intro p s x hx
  unfold lineRestartBody at hx
  split at hx
  · split at hx
    · cases hx
    · cases hx; exact (whole_restartLine _ s).kept
  · cases hx

theorem kept_loadCurve : BodyKept loadCurveBody := by
  intro p s x hx
  unfold loadCurveBody at hx
  split at hx
  · dsimp only at hx
    split at hx
    · cases hx
    · next k _ =>
      split at hx
      · next hc =>
        split at hx
        · cases hx
        · cases hx
          refine { Kept.refl s with curves := fun h j hl => ?_ }
          simp only [storeCurve, Fin.getElem_fin, Vector.getElem_set] at hl ⊢
          split
          · exact hc
          · next hne => simp only [hne, if_false] at hl; exact h j hl
      · cases hx
  · cases hx

theorem probeAt_none {s : State} {n c : Fin 16} (h : probeAt s n c = none) (i : Fin 192) (m : Mapping)
    (hm : (s.probe i).isMapped = true) (hp : (s.probe i).mapping = some m) : m.node = n → m.channel ≠ c := by
  intro h1 h2
  unfold probeAt at h
  rw [List.find?_eq_none] at h
  have := h i (List.mem_finRange i)
  simp [hm, hp, h1, h2] at this

theorem channelBit (c k : Fin 16) : (1#16 <<< c.val).getLsbD k.val = decide (k = c) := by
  revert c k; decide

theorem maskWith_bit (mask : BitVec 16) (c k : Fin 16) :
    (maskWith mask c).getLsbD k.val = true ↔ mask.getLsbD k.val = true ∨ k = c := by
  simp only [maskWith, BitVec.getLsbD_or, channelBit, Bool.or_eq_true, decide_eq_true_eq]

theorem maskWithout_bit (mask : BitVec 16) (c k : Fin 16) :
    (maskWithout mask c).getLsbD k.val = true ↔ mask.getLsbD k.val = true ∧ k ≠ c := by
  simp only [maskWithout, BitVec.getLsbD_and, BitVec.getLsbD_not, channelBit, Bool.and_eq_true, Bool.not_eq_true',
    decide_eq_false_iff_not, k.isLt, decide_true, true_and, ne_eq]

/-- The mappings after one entry is replaced. -/
theorem mapping_set {s : State} {i j : Fin 192} {e : ProbeEntry} {a : Mapping} :
    (s.setProbe i e).probes[j].mapping = some a ↔
      (i = j ∧ e.mapping = some a) ∨ (i ≠ j ∧ s.probes[j].mapping = some a) := by
  by_cases h : i = j
  · subst h; simp [State.setProbe]
  · have : i.val ≠ j.val := fun e => h (Fin.ext e)
    simp [State.setProbe, this, h]

/-- R23, R24: a mapping given to an unmapped entry, with its node told. -/
theorem nodesSound_gain {s : State} (i : Fin 192) (m : Mapping) (hun : (s.probe i).mapping = none)
    (h : NodesSound s.poller.nodes s.probes) :
    NodesSound (mapProbe i m s).poller.nodes (mapProbe i m s).probes := by
  have maps : ∀ (j : Fin 192) (a : Mapping), (mapProbe i m s).probes[j].mapping = some a ↔
      (i = j ∧ m = a) ∨ s.probes[j].mapping = some a := by
    intro j a
    refine (mapping_set (s := s) (e := mappedEntry m)).trans ?_
    by_cases hj : i = j
    · subst hj
      simp only [State.probe, Fin.getElem_fin] at hun
      simp [mappedEntry, hun]
    · simp [hj]
  intro n
  simp only [maps]
  by_cases hn : m.node = n
  · subst hn
    have e : (mapProbe i m s).poller.nodes[m.node] = (s.node m.node).gain m.channel := by
      simp [mapProbe, nodeGains, State.setNode, State.node, State.setProbe]
    rw [e]
    have hmask : ((s.node m.node).gain m.channel).mask = maskWith (s.node m.node).mask m.channel := by
      unfold NodeEntry.gain; split <;> rfl
    refine ⟨⟨fun hv => ?_, fun hv => absurd rfl (hv i m (.inl ⟨rfl, rfl⟩))⟩, fun c => ?_⟩
    · unfold NodeEntry.gain at hv
      split at hv
      · cases hv
      · next hne => exact absurd hv hne
    · rw [hmask, maskWith_bit]
      constructor
      · rintro (hb | rfl)
        · obtain ⟨j, a, ha, h1, h2⟩ := ((h m.node).2 c).1 hb
          exact ⟨j, a, .inr ha, h1, h2⟩
        · exact ⟨i, m, .inl ⟨rfl, rfl⟩, rfl, rfl⟩
      · rintro ⟨j, a, ⟨rfl, rfl⟩ | ha, h1, h2⟩
        · exact .inr h2.symm
        · exact .inl (((h m.node).2 c).2 ⟨j, a, ha, h1, h2⟩)
  · have e : (mapProbe i m s).poller.nodes[n] = s.poller.nodes[n] :=
      State.node_setNode_ne _ m.node n _ hn
    rw [e]
    refine ⟨(h n).1.trans ⟨fun hv j a ha => ?_, fun hv j a ha => hv j a (.inr ha)⟩,
      fun c => ((h n).2 c).trans ⟨fun ⟨j, a, ha, hr⟩ => ⟨j, a, .inr ha, hr⟩, fun ⟨j, a, ha, h1, h2⟩ => ?_⟩⟩
    · rcases ha with ⟨rfl, rfl⟩ | ha
      · exact hn
      · exact hv j a ha
    · rcases ha with ⟨rfl, rfl⟩ | ha
      · exact absurd h1 hn
      · exact ⟨j, a, ha, h1, h2⟩

/-- R23, R24: the mapping of an entry taken away, with its node told. -/
theorem nodesSound_lose {s : State} (i : Fin 192) (m : Mapping) (hm : (s.probe i).mapping = some m)
    (hp : ProbesSound s.probes) (h : NodesSound s.poller.nodes s.probes) :
    NodesSound ((s.setProbe i probeReset).setNode m.node ((s.node m.node).lose m.channel)).poller.nodes
      (s.setProbe i probeReset).probes := by
  have maps : ∀ (j : Fin 192) (a : Mapping), (s.setProbe i probeReset).probes[j].mapping = some a ↔
      i ≠ j ∧ s.probes[j].mapping = some a := by
    intro j a
    refine mapping_set.trans ?_
    simp [probeReset]
  -- a mapping on this node stands after the loss exactly when its channel is another one
  have other : ∀ (j : Fin 192) (a : Mapping), s.probes[j].mapping = some a → a.node = m.node →
      (i ≠ j ↔ a.channel ≠ m.channel) := by
    intro j a ha hn
    refine ⟨fun hij hc => hij (hp.2 i j m a hm ha hn.symm hc.symm), fun hc hij => hc ?_⟩
    subst hij
    exact congrArg Mapping.channel (Option.some.inj (ha.symm.trans hm))
  intro n
  simp only [maps]
  by_cases hn : m.node = n
  · subst hn
    have e : ((s.setProbe i probeReset).setNode m.node ((s.node m.node).lose m.channel)).poller.nodes[m.node] =
        (s.node m.node).lose m.channel := State.node_setNode _ _ _
    rw [e]
    have bits : ∀ c : Fin 16, (maskWithout (s.node m.node).mask m.channel).getLsbD c.val = true ↔
        ∃ (j : Fin 192) (a : Mapping), (i ≠ j ∧ s.probes[j].mapping = some a) ∧ a.node = m.node ∧ a.channel = c := by
      intro c
      rw [maskWithout_bit]
      constructor
      · rintro ⟨hb, hc⟩
        obtain ⟨j, a, ha, h1, rfl⟩ := ((h m.node).2 c).1 hb
        exact ⟨j, a, ⟨(other j a ha h1).2 hc, ha⟩, h1, rfl⟩
      · rintro ⟨j, a, ⟨hij, ha⟩, h1, rfl⟩
        exact ⟨((h m.node).2 _).2 ⟨j, a, ha, h1, rfl⟩, (other j a ha h1).1 hij⟩
    unfold NodeEntry.lose
    split
    · next h0 =>
      rw [h0] at bits
      refine ⟨⟨fun _ j a ha h1 => ?_, fun _ => rfl⟩, fun c => bits c⟩
      have := (bits a.channel).2 ⟨j, a, ha, h1, rfl⟩
      simp at this
    · next h0 =>
      refine ⟨⟨fun hv => absurd rfl ((h m.node).1.1 hv i m hm), fun hv => ?_⟩, bits⟩
      refine absurd (BitVec.eq_of_getLsbD_eq fun k hk => ?_) h0
      rw [Bool.eq_iff_iff]
      refine ⟨fun hb => ?_, fun hb => by simp at hb⟩
      obtain ⟨j, a, ha, h1, _⟩ := (bits ⟨k, hk⟩).1 hb
      exact absurd h1 (hv j a ha)
  · have e : ((s.setProbe i probeReset).setNode m.node ((s.node m.node).lose m.channel)).poller.nodes[n] =
        s.poller.nodes[n] := State.node_setNode_ne _ m.node n _ hn
    rw [e]
    have stays : ∀ (j : Fin 192) (a : Mapping), s.probes[j].mapping = some a → a.node = n → i ≠ j := by
      rintro j a ha h1 rfl
      exact hn ((congrArg Mapping.node (Option.some.inj (hm.symm.trans ha))).trans h1)
    refine ⟨(h n).1.trans ⟨fun hv j a ha => hv j a ha.2, fun hv j a ha h1 => hv j a ⟨stays j a ha h1, ha⟩ h1⟩,
      fun c => ((h n).2 c).trans ⟨fun ⟨j, a, ha, h1, h2⟩ => ⟨j, a, ⟨stays j a ha h1, ha⟩, h1, h2⟩,
        fun ⟨j, a, ha, h1, h2⟩ => ⟨j, a, ha.2, h1, h2⟩⟩⟩

theorem kept_mapProbe : BodyKept mapProbeBody := by
  intro p s x hx
  unfold mapProbeBody at hx
  split at hx
  · split at hx
    · next a n c z k i m hi hmp =>
      split at hx
      · cases hx
      · next hun =>
        split at hx
        · cases hx
        · next hfree =>
          cases hx
          have hnone : probeAt s m.node m.channel = none := by simpa using hfree
          refine { Kept.refl s with
            same := ⟨rfl, rfl⟩, probes := fun hp => ?_, figures := fun hf j => ?_
            nodes := fun hp hn => nodesSound_gain i m ?_ hn }
          · refine ⟨fun j => ?_, fun j j' a b ha hb hn hc => ?_⟩
            · simp only [mapProbe, nodeGains, State.setNode, State.setProbe, Fin.getElem_fin, Vector.getElem_set]
              split
              · rfl
              · exact hp.1 j
            · simp only [mapProbe, nodeGains, State.setNode, State.setProbe, Fin.getElem_fin, Vector.getElem_set] at ha hb
              have mapped : ∀ j : Fin 192, ∀ a, s.probes[j] = s.probe j →
                  (s.probe j).mapping = some a → (s.probe j).isMapped = true := by
                intro j a _ h; have := hp.1 j; simp only [State.probe] at *; rw [this, h]; rfl
              split at ha <;> split at hb
              · next e1 e2 => exact Fin.ext (e1.symm.trans e2)
              · cases ha
                exact absurd hc.symm (probeAt_none hnone j' b (mapped j' b rfl hb) hb hn.symm)
              · cases hb
                exact absurd hc (probeAt_none hnone j a (mapped j a rfl ha) ha hn)
              · exact hp.2 j j' a b ha hb hn hc
          · have := hp.1 i
            simp only [State.probe] at hun ⊢
            rw [this] at hun
            simpa using hun
          · simp only [mapProbe, nodeGains, State.setNode, State.setProbe, Fin.getElem_fin, Vector.getElem_set]
            split
            · simp [Figured, mappedEntry]
            · exact hf j
    · cases hx
  · cases hx

theorem kept_unmapProbe (s : State) (i : Fin 192) : Kept s (unmapProbe s i) := by
  have hp : ProbesSound s.probes → ProbesSound (s.setProbe i probeReset).probes := by
    intro hp
    refine ⟨fun j => ?_, fun j j' a b ha hb hn hc => ?_⟩
    · simp only [State.setProbe, Fin.getElem_fin, Vector.getElem_set]
      split
      · rfl
      · exact hp.1 j
    · simp only [State.setProbe, Fin.getElem_fin, Vector.getElem_set] at ha hb
      split at ha
      · cases ha
      · split at hb
        · cases hb
        · exact hp.2 j j' a b ha hb hn hc
  have hf : FiguresSound s.probes → FiguresSound (s.setProbe i probeReset).probes := by
    intro hf j
    simp only [State.setProbe, Fin.getElem_fin, Vector.getElem_set]
    split
    · simp [Figured, probeReset]
    · exact hf j
  unfold unmapProbe
  split
  · next m hm =>
    refine Kept.trans (t := (s.setProbe i probeReset).setNode m.node ((s.node m.node).lose m.channel)) ?_
      (calm_markLost _ _).kept
    exact { Kept.refl s with
      same := ⟨rfl, rfl⟩, probes := hp, figures := hf, nodes := fun h hn => nodesSound_lose i m hm h hn }
  · next hm =>
    refine { Kept.refl s with
      same := ⟨rfl, rfl⟩, probes := hp, figures := hf
      nodes := fun _ => nodesSound_of_maps (s := s) (t := s.setProbe i probeReset) (fun j => ?_) fun n => ⟨rfl, Iff.rfl⟩ }
    by_cases h : i = j
    · subst h; simp [hm, probeReset]
    · rw [State.probe_setProbe_ne s i j _ h]

theorem kept_foldl {α} {f : State → α → State} {l : List α} (s : State)
    (h : ∀ a ∈ l, ∀ s, Kept s (f s a)) : Kept s (l.foldl f s) := by
  induction l generalizing s with
  | nil => exact Kept.refl s
  | cons a l ih => exact (h a (by simp) s).trans (ih _ fun b hb => h b (by simp [hb]))

theorem kept_unmapProbes : BodyKept unmapProbesBody := by
  intro p s x hx
  unfold unmapProbesBody runBody at hx
  split at hx
  · split at hx
    · cases hx
    · cases hx; exact kept_foldl s fun a _ s => kept_unmapProbe s a
  · cases hx

theorem runMembers_mapped {s : State} {i e : Nat} {ok : ProbeEntry → Bool} {j : Fin 192}
    (h : j ∈ runMembers s i e ok) : ok (s.probe j) = true := by
  unfold runMembers at h; simp at h; exact h.2

/-- A mapped entry put into a state that does not contribute, with its mapping. -/
theorem kept_setProbe {s : State} {i : Fin 192} {e : ProbeEntry} (hm : (s.probe i).isMapped = true)
    (h1 : e.mapping = (s.probe i).mapping)
    (h2 : e.isMapped = true) (h3 : ¬ (e.state = .active ∨ e.state = .suspect)) : Kept s (s.setProbe i e) :=
  (calm_setProbe i e s h1 (by rw [h2, hm]) (fun _ h => absurd h h3)).kept

theorem kept_foldl_mapped {f : State → Fin 192 → State} (hk : ∀ s i, (s.probe i).isMapped = true → Kept s (f s i))
   (hm : ∀ s i j, (s.probe i).isMapped = true → (s.probe j).isMapped = true → ((f s i).probe j).isMapped = true)
   (l : List (Fin 192)) (s : State) (h : ∀ j ∈ l, (s.probe j).isMapped = true) : Kept s (l.foldl f s) := by
  induction l generalizing s with
  | nil => exact Kept.refl s
  | cons a l ih =>
    exact (hk s a (h a (by simp))).trans (ih _ fun j hj => hm s a j (h a (by simp)) (h j (by simp [hj])))

theorem kept_excludeProbes : BodyKept excludeProbesBody := by
  intro p s x hx
  unfold excludeProbesBody runBody at hx
  split at hx
  · split at hx
    · cases hx
    · cases hx
      refine kept_foldl_mapped
        (fun s i hm =>
          (kept_setProbe (e := { s.probe i with state := .excluded, manual := true }) hm rfl rfl (by simp) :
            Kept s (excludeProbe s i)))
        (fun s i j hi hj => ?_) _ s fun j hj => ?_
      · show ((s.setProbe i _).probe j).isMapped = true
        by_cases e : i = j
        · subst e; simp [State.probe, State.setProbe, ProbeEntry.isMapped]
        · have : i.val ≠ j.val := fun h => e (Fin.ext h)
          simpa [State.probe, State.setProbe, this] using hj
      · have := runMembers_mapped hj
        unfold ProbeEntry.excludable at this
        unfold ProbeEntry.isMapped
        cases hst : (s.probe j).state <;> simp_all
  · cases hx

theorem kept_includeProbes : BodyKept includeProbesBody := by
  intro p s x hx
  unfold includeProbesBody runBody at hx
  split at hx
  · split at hx
    · cases hx
    · cases hx
      refine kept_foldl_mapped
        (fun s i hm =>
          (kept_setProbe (e := (s.probe i).resettled) hm rfl rfl (by simp [ProbeEntry.resettled]) :
            Kept s (includeProbe s i)))
        (fun s i j hi hj => ?_) _ s fun j hj => ?_
      · show ((s.setProbe i _).probe j).isMapped = true
        by_cases e : i = j
        · subst e; simp [State.probe, State.setProbe, ProbeEntry.isMapped, ProbeEntry.resettled]
        · have : i.val ≠ j.val := fun h => e (Fin.ext h)
          simpa [State.probe, State.setProbe, this] using hj
      · have := runMembers_mapped hj
        unfold ProbeEntry.includable at this
        unfold ProbeEntry.isMapped
        cases hst : (s.probe j).state <;> simp_all
  · cases hx

theorem kept_fieldStart : BodyKept fieldStartBody := by
  intro p s x hx
  unfold fieldStartBody doneFieldState at hx
  split at hx
  · split at hx
    · cases hx; exact (whole_fieldStarted s).kept
    · cases hx; exact Kept.refl s
    · cases hx
  · cases hx

theorem kept_fieldHalt : BodyKept fieldHaltBody := by
  intro p s x hx
  unfold fieldHaltBody doneFieldState at hx
  split at hx
  · split at hx
    · cases hx
    · split at hx
      · cases hx; exact (calm_fieldHalted s).kept
      · cases hx; exact Kept.refl s
      · cases hx; exact { Kept.refl s with same := ⟨rfl, rfl⟩ }
  · cases hx

theorem kept_loadStep : BodyKept loadStepBody := by
  intro p s x hx
  unfold loadStepBody at hx
  split at hx
  · split at hx
    · next i r _ hr =>
      split at hx
      · cases hx
      · next hi =>
        cases hx
        refine (whole_storeStep i r s ?_ (by simpa using hi)).kept
        unfold loadStepRecord at hr
        split at hr
        · split at hr
          · next h => cases hr; exact h
          · cases hr
        · cases hr
    · cases hx
  · cases hx

theorem kept_setStepCount : BodyKept setStepCountBody := by
  intro p s x hx
  unfold setStepCountBody at hx
  split at hx
  · split at hx
    · next h => cases hx; exact (whole_setStepCount _ s h).kept
    · cases hx
  · cases hx

theorem kept_engaged {act : State → State} {report} (h : ∀ s, s.sequencer.engaged = true → Kept s (act s)) :
    BodyKept (engagedBody act report) := by
  intro p s x hx
  unfold engagedBody at hx
  split at hx
  · split at hx
    · next he => cases hx; exact h s he
    · cases hx
  · cases hx

theorem kept_hold : BodyKept holdBody := kept_engaged fun s _ => (plant_addCause _ s).whole.kept

theorem kept_release : BodyKept releaseBody := kept_engaged fun s _ => (plant_removeCause _ s).whole.kept

theorem kept_skip : BodyKept skipBody := kept_engaged fun s h => (whole_exitStep _ s h).kept

theorem kept_abort : BodyKept abortBody := kept_engaged fun s _ => (whole_abortSchedule s).kept

theorem kept_chargeReset : BodyKept chargeResetBody := by
  intro p s x hx
  unfold chargeResetBody at hx
  split at hx
  · split at hx
    · cases hx
    · cases hx; exact (whole_chargeReset s).kept
  · cases hx

theorem kept_setEnvelope : BodyKept setEnvelopeBody := by
  intro p s x hx
  unfold setEnvelopeBody at hx
  split at hx
  · split at hx
    · split at hx
      · cases hx
      · cases hx; exact { Kept.refl s with same := ⟨rfl, rfl⟩ }
    · cases hx
  · cases hx

theorem kept_setZoneMode : BodyKept setZoneModeBody := by
  intro p s x hx
  unfold setZoneModeBody at hx
  split at hx
  · split at hx
    · cases hx; exact (calm_setZoneMode _ _ s).kept
    · cases hx
  · cases hx

theorem kept_clearFaults : BodyKept clearFaultsBody := by
  intro p s x hx
  unfold clearFaultsBody at hx
  split at hx
  · split at hx
    · cases hx
      exact { Kept.refl s with same := ⟨rfl, rfl⟩, faults := fun _ i j a b ha => by simp [clearAllFaults] at ha }
    · split at hx
      · cases hx
      · next i _ =>
        cases hx
        exact { Kept.refl s with same := ⟨rfl, rfl⟩, faults := fun h => faultsSound_free h i _ }
  · cases hx

theorem kept_collectNotices : BodyKept collectNoticesBody := by
  intro p s x hx
  unfold collectNoticesBody at hx
  split at hx
  · split at hx
    · cases hx
      exact { Kept.refl s with
        same := ⟨rfl, rfl⟩
        notices := fun h => by simp [NoticesSound, NoticeQueue.collected] at *; omega }
    · cases hx
  · cases hx

theorem kept_window (f : KilnFrame) (s : State) (x : Executed) (hx : windowBody f s = .ok x) : Kept s x.state := by
  unfold windowBody at hx
  split at hx
  · unfold zoneSetBody at hx
    split at hx
    · cases hx
    · split at hx
      · cases hx
      · split at hx
        · cases hx
        · split at hx
          · cases hx
          · cases hx
            exact kept_foldl s fun z _ s => (calm_takeManual z _ s).kept
  all_goals cases hx

theorem Kept.ofOuter {s t : State} (h : Outer s t)
    (k : CausesSound s.sequencer → ScheduleSound s.sequencer → CausesSound t.sequencer ∧ ScheduleSound t.sequencer) :
    Kept s t :=
  Whole.kept { h with sound := k }

theorem state_of_done {s : State} {d : List Byte} {x : Executed} (h : done s d = .ok x) : s = x.state := by cases h; rfl

theorem kept_start : BodyKept startBody := by
  intro p s x hx
  unfold startBody at hx
  split at hx
  · split at hx
    · cases hx
    · next hb =>
      split at hx
      · cases hx
      · next r hr =>
        rw [← state_of_done hx]
        refine Kept.ofOuter (outer_startSchedule 0 0 r s) fun hc hs => ?_
        have hl : s.sequencer.state = .loaded := by
          simp [startBusy] at hb; exact hb.1
        have := hs.2.2.2.2.1 hl
        exact (whole_startSchedule 0 0 r s (by omega) hr (stepRecordOk_maximum (hs.1 0 r hr))).sound hc hs
  · cases hx

theorem kept_resume : BodyKept resumeBody := by
  intro p s x hx
  unfold resumeBody at hx
  split at hx
  · split at hx
    · cases hx
    · next r hr =>
      split at hx
      · cases hx
      · rw [← state_of_done hx]
        unfold resumeStep at hr
        split at hr
        · next hk =>
          rw [Option.filter_eq_some_iff] at hr
          exact (whole_startSchedule _ _ r s hk hr.1 (by simpa using hr.2)).kept
        · cases hr
  · cases hx

end Sys2Proof.Laws
end

