-- ==== Sys2Proof/Laws/Runs.lean ====
section
/-! SUPPORT. The requests on a run of probe entries (R49): their checks, the run's members and the fold over them. -/

namespace Sys2Proof.Laws

open Sys2Proof.Machine

theorem inRun_eq (p e : Nat) (i : Fin 192) : inRun p e i =
    (decide (p / 2 ^ e * 2 ^ e ≤ i.val) && decide (i.val < p / 2 ^ e * 2 ^ e + 2 ^ e)) := rfl

theorem length_ne_two {p : List Byte} (h : p.length ≠ 2) : p = [] ∨ (∃ a, p = [a]) ∨ ∃ a b c d, p = a :: b :: c :: d := by
  rcases p with _ | ⟨a, _ | ⟨b, _ | ⟨c, d⟩⟩⟩
  · exact .inl rfl
  · exact .inr (.inl ⟨_, rfl⟩)
  · simp at h
  · exact .inr (.inr ⟨_, _, _, _, rfl⟩)

theorem runBody_len {ok ch} {p : List Byte} {s} (h : p.length ≠ 2) : runBody ok ch p s = .error .badLength := by
  rcases length_ne_two h with e | ⟨_, e⟩ | ⟨_, _, _, _, e⟩ <;> rw [e] <;> rfl
theorem runBody_range {ok ch} {a b : Byte} {s} (h : 191 < a.toNat ∨ 7 < b.toNat) :
    runBody ok ch [a, b] s = .error .range := by
  have : runOf a b = none := if_neg (by omega)
  simp only [runBody, this]
theorem runBody_ok {ok ch} {a b : Byte} {s} (h1 : a.toNat ≤ 191) (h2 : b.toNat ≤ 7) :
    runBody ok ch [a, b] s = done ((runMembers s a.toNat b.toNat ok).foldl ch s) (b1 (runMembers s a.toNat b.toNat ok).length) := by
  have : runOf a b = some (a.toNat, b.toNat) := if_pos ⟨h1, h2⟩
  simp only [runBody, this]

theorem setProbe_foldl (f : ProbeEntry → ProbeEntry) (l : List (Fin 192)) (hl : l.Nodup) (s : State) :
   ∃ v, l.foldl (fun s i => s.setProbe i (f (s.probe i))) s = { s with probes := v } ∧
     ∀ i : Fin 192, v[i] = if i ∈ l then f (s.probe i) else s.probe i := by
  induction l generalizing s with
  | nil => exact ⟨s.probes, rfl, fun i => by simp [State.probe]⟩
  | cons j l ih =>
    obtain ⟨v, h1, h2⟩ := ih (List.nodup_cons.1 hl).2 (s.setProbe j (f (s.probe j)))
    refine ⟨v, h1, fun i => ?_⟩
    rw [h2]
    by_cases hij : i = j
    · subst hij
      rw [if_neg (List.nodup_cons.1 hl).1, if_pos (by simp)]
      simp [State.probe, State.setProbe]
    · have : (s.setProbe j (f (s.probe j))).probe i = s.probe i := by
        simp only [State.probe, State.setProbe, Fin.getElem_fin]
        exact Vector.getElem_set_ne _ _ (fun hh => hij (Fin.ext hh.symm))
      rw [this]; simp [hij]

theorem nodup_members (s p e ok) : (runMembers s p e ok).Nodup := (List.nodup_finRange 192).filter _
theorem len_members (s p e ok) : (runMembers s p e ok).length =
    (List.finRange 192).countP fun i => inRun p e i && ok (s.probe i) := by
  unfold runMembers; rw [List.countP_eq_length_filter]

end Sys2Proof.Laws
end

