-- ==== Sys2Proof/Laws/Schedule.lean ====
section
/-! SUPPORT. What the minute tick and a step exit come to, case by case (R114, R117), and when a schedule is engaged. -/

namespace Sys2Proof.Laws

open Sys2Proof.Machine
open Sys2Proof.Safety

theorem stepAt_congr {q p : Sequencer} (h : p.steps = q.steps) (i : Nat) : p.stepAt i = q.stepAt i := by
  unfold Sequencer.stepAt; rw [h]

theorem currentStep_congr {q p : Sequencer} (h1 : p.stepIndex = q.stepIndex) (h2 : p.steps = q.steps) :
    p.currentStep = q.currentStep := by
  unfold Sequencer.currentStep; rw [h1]; cases q.stepIndex <;> simp [stepAt_congr h2]

/-- R111: outside HELD the cause set of a sound Sequencer is empty. -/
theorem causes_empty {q : Sequencer} (h : CausesSound q) (hs : q.state ≠ .held) : q.causes = noCauses := by
  have : q.causes.isEmpty = true := by
    by_contra hh
    exact hs (h.1 (by simpa using hh))
  rcases hc : q.causes with ⟨a, b, c, d⟩
  rw [hc] at this
  simp [Causes.isEmpty] at this
  simp [noCauses, this]

theorem minuteTick_idle {s : State} (h : s.sequencer.engaged = false) : minuteTick s = uptimeTick s := by
  simp only [Sequencer.engaged, Bool.or_eq_false_iff, beq_eq_false_iff_ne] at h
  unfold minuteTick
  dsimp only
  have e : (uptimeTick s).sequencer = s.sequencer := rfl
  rw [e]
  cases hs : s.sequencer.state <;> simp_all

theorem minuteTick_held {s : State} (h : s.sequencer.state = .held) :
    minuteTick s = (uptimeTick s).setSequencer s.sequencer.chargeTicked := by
  unfold minuteTick
  dsimp only
  have e : (uptimeTick s).sequencer = s.sequencer := rfl
  rw [e, h]

theorem minuteTick_running {s : State} (h : s.sequencer.state = .running) :
    minuteTick s = runningTick ((uptimeTick s).setSequencer s.sequencer.ticked) := by
  unfold minuteTick
  dsimp only
  have e : (uptimeTick s).sequencer = s.sequencer := rfl
  rw [e, h]

/-- R114: a tick below the step's maximum duration takes the ramp and makes the fan test. -/
theorem runningTick_below {s : State} {r : StepRecord} (h : s.sequencer.currentStep = some r)
    (hm : s.sequencer.elapsed < r.maximum) :
    runningTick s = fanTest r (s.setSequencer (s.sequencer.ramped r)) := by
  unfold runningTick
  rw [h]
  simp only [if_neg (Nat.not_le.2 hm)]

/-- R115: a tick that reaches the maximum duration makes the step exit. -/
theorem runningTick_limit {s : State} {r : StepRecord} (h : s.sequencer.currentStep = some r)
    (hm : r.maximum ≤ s.sequencer.elapsed) : runningTick s = exitStep (limitReason r) s := by
  unfold runningTick
  rw [h]
  simp only [if_pos hm]

/-- R117: an exit before the last step enters the next. -/
theorem exitStep_next {s : State} {i : Nat} {r : StepRecord} (why : ExitReason) (hi : s.sequencer.stepIndex = some i)
    (hn : i + 1 < s.sequencer.stepCount) (hr : s.sequencer.stepAt (i + 1) = some r) :
    exitStep why s = advanceTo i r why (appendHistory (exitEntry s i why) s) := by
  unfold exitStep
  rw [hi]
  simp only [if_pos hn, hr]

/-- R117: an exit of the last step ends the schedule. -/
theorem exitStep_last {s : State} {i : Nat} (why : ExitReason) (hi : s.sequencer.stepIndex = some i)
    (hn : s.sequencer.stepCount ≤ i + 1) :
    exitStep why s = endSchedule i why (appendHistory (exitEntry s i why) s) := by
  unfold exitStep
  rw [hi]
  simp only [if_neg (Nat.not_lt.2 hn)]

end Sys2Proof.Laws
end

