-- ==== Sys2Proof/Laws/ScheduleFrames.lean ====
section
/-! SUPPORT. What the acts of the Sequencer and the cycle close leave alone: the Field Line, the Poller, the Probe Table
and everything else outside the schedule, the Estimate, the zones and the notices. -/

namespace Sys2Proof.Laws

open Sys2Proof.Machine

/-- `t` differs from `s` in the schedule, the Estimate, the zones, the Drive slot and the notices alone. -/
def ScheduleOnly (s t : State) : Prop :=
  ∃ (q : Sequencer) (e : Estimator) (z : ZoneControl) (slot : TxSlot) (n : NoticeQueue),
    t = { s with sequencer := q, estimator := e, zones := z, drive := { s.drive with slot := slot }, notices := n }

theorem ScheduleOnly.refl (s : State) : ScheduleOnly s s := ⟨_, _, _, _, _, rfl⟩

theorem ScheduleOnly.trans {s t u : State} (h : ScheduleOnly s t) (k : ScheduleOnly t u) : ScheduleOnly s u := by
  obtain ⟨_, _, _, _, _, rfl⟩ := h
  obtain ⟨_, _, _, _, _, rfl⟩ := k
  exact ⟨_, _, _, _, _, rfl⟩

theorem ScheduleOnly.field {s t : State} (h : ScheduleOnly s t) : t.field = s.field := by
  obtain ⟨_, _, _, _, _, rfl⟩ := h; rfl

theorem ScheduleOnly.poller {s t : State} (h : ScheduleOnly s t) : t.poller = s.poller := by
  obtain ⟨_, _, _, _, _, rfl⟩ := h; rfl

theorem ScheduleOnly.probes {s t : State} (h : ScheduleOnly s t) : t.probes = s.probes := by
  obtain ⟨_, _, _, _, _, rfl⟩ := h; rfl

theorem ScheduleOnly.params {s t : State} (h : ScheduleOnly s t) : t.params = s.params := by
  obtain ⟨_, _, _, _, _, rfl⟩ := h; rfl

theorem ZonesOnly.scheduleOnly {s t : State} (h : ZonesOnly s t) : ScheduleOnly s t := by
  obtain ⟨_, _, _, rfl⟩ := h; exact ⟨_, _, _, _, _, rfl⟩

theorem scheduleOnly_setSequencer (q : Sequencer) (s : State) : ScheduleOnly s (s.setSequencer q) :=
  ⟨_, s.estimator, s.zones, s.drive.slot, s.notices, rfl⟩

theorem scheduleOnly_changeHold (c : Causes) (st : ScheduleState) (s : State) : ScheduleOnly s (changeHold c st s) := by
  have h := (scheduleOnly_setSequencer { s.sequencer with causes := c, state := st } s).trans
    (zonesOnly_scheduleNotice _).scheduleOnly
  unfold changeHold
  simp only
  split
  · exact h
  · exact h.trans (zonesOnly_tellZones _).scheduleOnly

theorem scheduleOnly_addCause (h : HoldCause) (s : State) : ScheduleOnly s (addCause h s) := by
  unfold addCause; split
  · exact scheduleOnly_changeHold _ _ _
  · exact ScheduleOnly.refl s

theorem scheduleOnly_removeCause (h : HoldCause) (s : State) : ScheduleOnly s (removeCause h s) := by
  unfold removeCause; split
  · exact scheduleOnly_changeHold _ _ _
  · exact ScheduleOnly.refl s

theorem scheduleOnly_enterStep (i e : Nat) (r : StepRecord) (b : Int) (s : State) :
    ScheduleOnly s (enterStep i e r b s) := by
  have h : ScheduleOnly s (clearLagFlags (s.setSequencer (s.sequencer.entered i e r b))) :=
    ⟨_, _, s.zones, s.drive.slot, s.notices, rfl⟩
  unfold enterStep
  refine ScheduleOnly.trans ?_ (zonesOnly_tellZones _).scheduleOnly
  split
  · exact h
  · exact h.trans (zonesOnly_tellZones _).scheduleOnly

theorem scheduleOnly_advanceTo (i : Nat) (r : StepRecord) (why : ExitReason) (s : State) :
    ScheduleOnly s (advanceTo i r why s) := by
  have h := (scheduleOnly_enterStep (i + 1) 0 r (s.sequencer.working.getD r.goal) s).trans
    (zonesOnly_raiseNotice .stepChange (i + 1) (some i) (some why.code) _).scheduleOnly
  unfold advanceTo
  simp only
  split
  · exact h.trans (zonesOnly_scheduleNotice _).scheduleOnly
  · exact h

theorem scheduleOnly_endSchedule (i : Nat) (why : ExitReason) (s : State) : ScheduleOnly s (endSchedule i why s) :=
  ((scheduleOnly_setSequencer _ s).trans (zonesOnly_raiseNotice _ _ _ _ _).scheduleOnly).trans
    ((zonesOnly_scheduleNotice _).trans (zonesOnly_tellZones _)).scheduleOnly

theorem scheduleOnly_exitStep (why : ExitReason) (s : State) : ScheduleOnly s (exitStep why s) := by
  unfold exitStep
  split
  · exact ScheduleOnly.refl s
  · next i _ =>
    have h : ScheduleOnly s (appendHistory (exitEntry s i why) s) := scheduleOnly_setSequencer _ s
    simp only
    split
    · split
      · exact h.trans (scheduleOnly_advanceTo _ _ _ _)
      · exact h
    · exact h.trans (scheduleOnly_endSchedule _ _ _)

theorem scheduleOnly_takeEstimate (e : Estimate) (s : State) : ScheduleOnly s (takeEstimate e s) := by
  have h : ScheduleOnly s (starvationStage e s) := by
    unfold starvationStage
    split
    · unfold updateStarvation
      split
      · exact (scheduleOnly_setSequencer _ s).trans (scheduleOnly_removeCause _ _)
      · simp only
        split
        · exact (scheduleOnly_setSequencer _ s).trans (scheduleOnly_addCause _ _)
        · exact scheduleOnly_setSequencer _ s
    · exact ScheduleOnly.refl s
  unfold takeEstimate
  simp only
  split
  · exact h.trans (scheduleOnly_exitStep _ _)
  · exact h

theorem scheduleOnly_zoneLagCheck (e : Estimate) (s : State) : ScheduleOnly s (zoneLagCheck e s) := by
  have h : ∀ (l : List (Fin 8)) (s : State), ScheduleOnly s (l.foldl (checkZoneLag e) s) := by
    intro l
    induction l with
    | nil => exact ScheduleOnly.refl
    | cons z l ih =>
      intro s
      refine ScheduleOnly.trans ?_ (ih _)
      unfold checkZoneLag
      split
      · exact ⟨s.sequencer, _, s.zones, s.drive.slot, _, rfl⟩
      · exact ScheduleOnly.refl s
  unfold zoneLagCheck
  split
  · exact h _ s
  · exact ScheduleOnly.refl s

theorem scheduleOnly_closeEstimate (s : State) : ScheduleOnly s (closeEstimate s) := by
  have h : ScheduleOnly s (storeEstimate (formEstimate s) s) := ⟨s.sequencer, _, s.zones, s.drive.slot, s.notices, rfl⟩
  exact (h.trans (scheduleOnly_zoneLagCheck _ _)).trans (scheduleOnly_takeEstimate _ _)

end Sys2Proof.Laws
end

