-- ==== Sys2Proof/WellFormed.lean ====
section
/-! DEFINITION. Well-formed commands: what a command's operands must be for its row's event to be the one that
happens. `exec` is total on the others too. -/

namespace Sys2Proof

/-- A CHARACTER_RECEIVED carries the samples of a character: a start bit whose majority is spacing (R2), and not
twelve spacing positions, which make a BREAK_CHARACTER (R3). Every other operand is bounded by its type. -/
def Instr.wellFormed : Instr → Bool
  | .characterReceived _ w => !Machine.positionValue w 0 && !Machine.allSpacing w
  | .powerUp _ _ | .breakCharacter _ | .spacingSpellStart _ | .spacingSpellEnd _ | .gapLimitExpiry _
  | .stuckLimitExpiry _ _ | .transmitStart _ | .transmitEnd _ | .replyTransmitEnd | .replyHandover
  | .cycleTimerExpiry | .scanAnswerTimeout | .drivePeriodExpiry | .driveAnswerTimeout | .minuteTick | .stepLimit
  | .fanReversal | .identify | .readLineStatus | .setConfig | .readConfig | .setAddressSlot | .lineRestart
  | .loadCurve | .readCurve | .mapProbe | .unmapProbes | .excludeProbes | .includeProbes | .readProbe | .readNode
  | .fieldStart | .fieldHalt | .readEstimate | .readRanking | .loadStep | .readStep | .setStepCount | .start
  | .resume | .hold | .release | .skip | .abort | .chargeReset | .readSchedule | .readHistory | .setEnvelope
  | .readEnvelope | .setZoneMode | .readZone | .readFault | .clearFaults | .collectNotices | .zoneSet
  | .unknownRequest | .kilnLineMarkingReturn => true

end Sys2Proof
end

