-- ==== Sys2Proof/Tests/Slice0.lean ====
section
/-! SUPPORT. Tests: the refusals of `Instr.wellFormed`, worked examples and layouts of the spec, and for each statement
of the certificate with hypotheses a named witness that meets them, clause by clause at boundary values. -/

namespace Sys2Proof.Tests

set_option Elab.async false

open Sys2Proof.Machine
open Sys2Proof.Safety

/-! ### States and operands used below -/

/-- A request frame at the station address of a part with ADDR 0. -/
def front (k : Byte) (p : List Byte) : KilnFrame :=
  { cls := .station, address := 0x10, kind := k, payload := p, noisy := false }

/-- A state with one request waiting and the reply place empty. -/
def ask (s : State) (k : Byte) (p : List Byte) : State :=
  { s with handler := { handlerReset with intake := [front k p] } }

/-- Every request of every state can be asked. -/
theorem asked (s : State) (k : Byte) (p : List Byte) : Asked (ask s k p) k (front k p) [] :=
  ⟨⟨rfl, rfl⟩, rfl, rfl⟩

/-- The payload of the reply a step leaves in the reply place. -/
def reply : Host.Outcome State Fault Refusal → Option (List Byte)
  | .next s => s.handler.replyPlace.map (·.frame.payload)
  | _ => none

/-- The state a step leaves. -/
def after : Host.Outcome State Fault Refusal → State
  | .next s => s
  | _ => .reset

/-- Chapter 10's step 0: HEAT_UP to 45.0 °C at once. -/
def heatStep : StepRecord :=
  { kind := .heatUp, target := 450, depression := 20, condition := .time, threshold := none, minimum := 0, maximum := 1,
    rampRate := 0, fanInterval := 0 }

/-- Chapter 10's step 1: DRY to 55.0 °C at 6.0 °C an hour. -/
def dryStep : StepRecord :=
  { kind := .dry, target := 550, depression := 50, condition := .mcBelow, threshold := some 150, minimum := 0,
    maximum := 600, rampRate := 60, fanInterval := 30 }

/-- Two loaded steps, `r` the current one at elapsed `m`, in a schedule state that holds `c`. -/
def scheduled (r : StepRecord) (m : Nat) (st : ScheduleState) (c : Causes := noCauses) : State :=
  { State.reset with
    field := pairUnitReset .running
    sequencer := { sequencerReset with
      steps := ((Vector.replicate 24 none).set 0 (some r)).set 1 (some heatStep), stepCount := 2, state := st
      stepIndex := some 0, elapsed := m, causes := c, basis := some 4500, working := some 4500 } }

/-- The same with the last step as the current one. -/
def atLast (st : ScheduleState) : State :=
  let s := scheduled heatStep 0 st
  { s with sequencer := { s.sequencer with stepIndex := some 1 } }

def starved : Causes := { noCauses with starved := true }

/-- A frame in progress after its address 0x10. -/
def record : FrameRecord :=
  { address := 0x10, kind := none, length := none, payload := [], check := [], crc := crcOf [0x10], noisy := false,
    gap := .running 48 }

/-- A frame in progress with kind 0x40, a length and a payload. -/
def bodyAt (n : Nat) (p : List Byte) : FrameRecord :=
  { record with kind := some 0x40, length := some n, payload := p, crc := crcOf (0x10 :: 0x40 :: BitVec.ofNat 8 n :: p) }

/-- A character as it arrives when it was sent so. -/
def char (b : Byte) (mark : Bool) : Samples := cleanSamples (transmitChar b mark)

/-- A scan of node 3. -/
def scan : Frame := { address := 0x43, kind := 0x21, payload := [7, 0, 3] }

/-- A frame in progress that lacks its second check byte alone. -/
def nearEnd (f : Frame) : FrameRecord :=
  { address := f.address, kind := some f.kind, length := some f.payload.length, payload := f.payload
    check := [highByte (crcOf f.covered)], crc := crcOf f.covered, noisy := false, gap := .running 48 }

/-- What the second check byte of that frame leaves. -/
def lastByte (l : Line) (f : Frame) (s : State) : State :=
  after (exec (.characterReceived l (char (lowByte (crcOf f.covered)) false)) (s.setAssembler l (.body (nearEnd f))))

/-- A scan attempt of node 3 with channels 0 and 1. -/
def attempt (p : ExchangePhase) : Staging :=
  { node := 3, retries := 0, tag := 7, mask := 3, phase := p, nextPart := 0, entries := [], temp := none, noisy := false,
    timeout := .running 20, lost := false }

/-- A state with that attempt in flight and the node ONLINE. -/
def visiting (p : ExchangePhase) : State :=
  { State.reset with poller := { pollerReset with
      phase := .cycling, cycleTimer := .running 60, staging := some (attempt p)
      nodes := (Vector.replicate 16 nodeReset).set 3 { nodeReset with state := .online, mask := 3 } } }

/-- A drive exchange of zone 2. -/
def exchangeOf (p : ExchangePhase) : DriveExchange :=
  { entry := { zone := 2, frame := powerUpFrame, modeAtBuild := .off }, phase := p, timeout := .running 20 }

/-- The frame queued at power-up for zone 0. -/
def powerUpEntry : QueuedFrame := { zone := 0, frame := powerUpFrame, modeAtBuild := .off }

/-- A state with that exchange in flight. -/
def exchanging (p : ExchangePhase) : State :=
  { State.reset with zones := { zoneControlReset with exchange := some (exchangeOf p) } }

/-- A status answer. -/
def status0 : DriverStatus :=
  { dry := 451, wet := 400, heat := 50, vent := 0, spray := 0, alarms := ⟨false, false, false, false⟩ }

/-- A probe entry in a state, on node 3, channel 0, zone 2, profile 2, with figures. -/
def entryIn (st : ProbeState) : ProbeEntry :=
  { probeReset with state := st, mapping := some { node := 3, channel := 0, zone := 2, profile := 2 }, filtered := some 250 }

/-- A state with that entry as probe 191. -/
def withProbe (st : ProbeState) : State :=
  { State.reset with probes := (Vector.replicate 192 probeReset).set 191 (entryIn st) }

/-- Chapter 4's profiles 2 and 6. -/
def profile2 : Profile :=
  { loaded := true, kt := 64, points := [⟨600, 300⟩, ⟨1200, 220⟩, ⟨1800, 160⟩, ⟨2400, 120⟩, ⟨3000, 90⟩, ⟨3600, 70⟩] }

/-! ### Well-formedness -/

theorem test_marking_start_ill_formed : (Instr.characterReceived .kiln 0xFFFFFFFFF).wellFormed = false := by decide
theorem test_all_spacing_ill_formed : (Instr.characterReceived .field 0).wellFormed = false := by decide
theorem test_character_well_formed : (Instr.characterReceived .kiln (char 0x10 true)).wellFormed = true := by decide

/-! ### Worked examples and layouts of the spec -/

/-- R7. -/
theorem test_crc : crcOf [0x31, 0x32, 0x33, 0x34, 0x35, 0x36, 0x37, 0x38, 0x39] = 0x29B1#16 := by decide +kernel
/-- R3: a line held spacing. -/
theorem test_receive_break : receive 0 = some breakChar := by decide
/-- R2: one sample of data bit 0 disagrees; the majority and the parity stand. -/
theorem test_receive_noise : (receive (char 0x10 true ^^^ 8)).map (fun c => (c.data, c.noise, c.parity)) =
    some (0x10, true, false) := by decide +kernel
/-- R62's table, with k = 4. -/
theorem test_filter_table : [(250, 243), (248, 243), (247, 243), (246, 243), (245, 243), (244, 243), (200, 230),
    (200, 201)].map (fun p => filterUpdate p.1 p.2 4) = [248, 247, 246, 245, 244, 243, 208, 201] := by decide
/-- Section 4.8: code 1500 on profile 2 at 65.0 °C. -/
theorem test_convert : convertOn profile2 .node 650 1500 =
    { corrected := 1788, mc := 161, flag := .none, source := .node } := by decide +kernel
/-- Section 4.8: code 500 at 15.0 °C lies beyond the wet end. -/
theorem test_convert_wet_end : convertOn profile2 .node 150 500 =
    { corrected := 468, mc := 300, flag := .wetEnd, source := .node } := by decide
/-- Chapter 10: the ramp from 4500 at 6.0 °C an hour, at elapsed 30. -/
theorem test_ramp : rampAt dryStep 4500 30 = 4800 ∧ rampAt heatStep 2010 0 = 4500 := by decide
/-- R49's table of runs: the first and last entry of 190 with exponent 6, and of 100 with exponent 7. -/
theorem test_exclude_run : reply (exec .excludeProbes (ask (withProbe .active) 0x4E [190, 6])) = some [0x4E, 0, 1] ∧
    reply (exec .excludeProbes (ask (withProbe .active) 0x4E [100, 7])) = some [0x4E, 0, 0] := by decide +kernel
/-- Section 11.2 and R166: ADDR 0. -/
theorem test_identify : reply (exec .identify (ask .reset 0x40 [])) =
    some [0x40, 0, 0x06, 0x24, 0x01, 192, 16, 8, 8, 24, 16, 32, 0x10, 0x80] := by decide +kernel
/-- R21 after power-up: HALTED, RUNNING, no discard, rate codes 0. -/
theorem test_line_status : reply (exec .readLineStatus (ask .reset 0x41 [])) = some [0x41, 0, 0, 1, 0, 0, 0, 0, 0, 0] := by
  decide +kernel
/-- R164: 601 s is above the cycle period's upper limit. -/
theorem test_set_config_clamped : reply (exec .setConfig (ask .reset 0x42 [1, 2, 89])) = some [0x42, 2, 1, 2, 88] := by
  decide +kernel
/-- R165: group control enable, 0..1, default 0. -/
theorem test_read_config : reply (exec .readConfig (ask .reset 0x43 [23])) = some [0x43, 0, 23, 0, 0, 0, 0, 0, 1, 0, 0] := by
  decide +kernel
theorem test_address_slot : (after (exec .setAddressSlot (ask .reset 0x44 [0xE0, 0xF0, 1]))).handler.slot1 =
    { address := 0xE0, mask := 0xF0, valid := true } := by decide +kernel
/-- Section 4.2's table: profile 6 loaded, and a code above 4095. -/
theorem test_load_curve : reply (exec .loadCurve (ask .reset 0x48 [6, 50, 2, 3, 0xE8, 1, 4, 0x0B, 0xB8, 0, 60])) =
    some [0x48, 0, 6, 2, 0] ∧
    reply (exec .loadCurve (ask .reset 0x48 [6, 50, 2, 3, 0xE8, 1, 4, 0x13, 0x88, 0, 60])) = some [0x48, 3] := by
  decide +kernel
/-- R72: an unloaded profile. -/
theorem test_read_curve : reply (exec .readCurve (ask .reset 0x49 [7])) = some [0x49, 0, 7, 0, 0, 0] := by decide +kernel
/-- R47: a profile that is not loaded. -/
theorem test_map_unloaded : reply (exec .mapProbe (ask .reset 0x4C [0, 0, 0, 0, 0])) = some [0x4C, 3] := by decide +kernel
/-- R65, R167: an UNMAPPED entry, every absent field all ones. -/
theorem test_read_probe : reply (exec .readProbe (ask .reset 0x50 [191])) = some ([0x50, 0, 191, 0] ++
    List.replicate 11 0xFF ++ [0] ++ List.replicate 4 0xFF ++ [0, 0] ++ List.replicate 4 0xFF) := by decide +kernel
theorem test_field_start : reply (exec .fieldStart (ask .reset 0x52 [])) = some [0x52, 0, 1] := by decide +kernel
theorem test_line_restart : reply (exec .lineRestart (ask .reset 0x54 [1])) = some [0x54, 0, 1] := by decide +kernel
/-- R153: an empty queue. -/
theorem test_collect_none : reply (exec .collectNotices (ask .reset 0x57 [4])) = some [0x57, 0, 0, 0, 0] := by decide +kernel
/-- R96: no Estimate. -/
theorem test_read_ranking : reply (exec .readRanking (ask .reset 0x59 [191])) =
    some [0x59, 0, 0, 0xFF, 0xFF, 0, 191] := by decide +kernel
/-- R102: a step that is not loaded. -/
theorem test_step_count_unloaded : reply (exec .setStepCount (ask .reset 0x5E [1])) = some [0x5E, 3] := by decide +kernel
/-- R104: EMPTY. -/
theorem test_start_empty : reply (exec .start (ask .reset 0x60 [])) = some [0x60, 4] := by decide +kernel
/-- R107: HOLD adds MANUAL to a RUNNING schedule; RELEASE leaves STARVED. -/
theorem test_hold : reply (exec .hold (ask (scheduled dryStep 0 .running) 0x62 [])) = some [0x62, 0, 3, 1] := by decide +kernel
theorem test_release_starved :
    reply (exec .release (ask (scheduled dryStep 0 .held { starved with manual := true }) 0x63 [])) = some [0x63, 0, 3, 2] := by
  decide +kernel
/-- R108: a step held for STARVED alone is left for a time step. -/
theorem test_skip_frees : reply (exec .skip (ask (scheduled dryStep 0 .held starved) 0x64 [])) = some [0x64, 0, 3, 2, 1] := by
  decide +kernel
theorem test_skip_last : reply (exec .skip (ask (atLast .running) 0x64 [])) = some [0x64, 0, 3, 4, 255] := by decide +kernel
theorem test_abort : reply (exec .abort (ask (scheduled dryStep 0 .running) 0x65 [])) = some [0x65, 0, 5] := by decide +kernel
theorem test_charge_reset : reply (exec .chargeReset (ask (scheduled dryStep 0 .aborted) 0x66 [])) = some [0x66, 0, 1] := by
  decide +kernel
theorem test_set_zone_mode : reply (exec .setZoneMode (ask .reset 0x6C [7, 2])) = some [0x6C, 0, 7, 2, 0] := by decide +kernel
theorem test_clear_all : reply (exec .clearFaults (ask .reset 0x6F [255])) = some [0x6F, 0, 0, 0] := by decide +kernel
/-- R162: a reply kind at the station address. -/
theorem test_unknown : reply (exec .unknownRequest (ask .reset 0x70 [])) = some [0x70, 1] := by decide +kernel
/-- R133: a zone in OFF does not take a ZONE SET frame. -/
theorem test_zone_set_off : reply (exec .zoneSet { State.reset with handler := { handlerReset with
    intake := [{ front 0x31 [0, 0, 0, 0, 0, 0, 0] with cls := .window (.one 0), address := 0x80 }] } }) = some [0x31, 7] := by
  decide +kernel
/-- R115: a time step's last minute. -/
theorem test_step_limit : (after (exec .stepLimit (scheduled heatStep 0 .running))).sequencer.history.map (·.reason) =
    [.timeDone] := by decide +kernel
/-- R124: the interval of 30 minutes. -/
theorem test_fan_reversal : (after (exec .fanReversal (scheduled dryStep 29 .running))).sequencer.fan = .reverse := by
  decide +kernel
/-- R138, R143: right after power-up zone 0's frame is in flight, SENDING, and zone 1's is pending. -/
theorem test_read_zone_power_up :
    ((reply (exec .readZone (ask .reset 0x6D [0]))).getD []).drop 31 = [0, 0xFF, 1, 0, 0] ∧
    ((reply (exec .readZone (ask .reset 0x6D [1]))).getD []).drop 31 = [1, 0, 0, 0xFF, 0xFF] := by decide +kernel
/-- R167: the flags of an absent manual record are 0, its stage and setpoints absent fields. -/
theorem test_absent_manual : (((reply (exec .readZone (ask .reset 0x6D [0]))).getD []).drop 16).take 6 =
    [0, 0xFF, 0x80, 0, 0x80, 0] := by decide +kernel
/-- R163: with the break first, the frame completed just before it stands alone in the queue. -/
theorem test_break_first :
    let s : State := { State.reset with handler := { handlerReset with
      intake := [front 0x40 [], front 0x41 []], completed := some { frame := front 0x41 [], discardBefore := .none } } }
    (after (exec (.breakCharacter (.kiln .breakFirst)) s)).handler.intake = [front 0x41 []] ∧
    (after (exec (.breakCharacter (.kiln .admissionFirst)) s)).handler.intake = [] := by decide +kernel
/-- R2, R13: after a FRAMING character on a pair that stands marking the idle count runs and no marking is awaited. -/
theorem test_framing_marking_again :
    let u := (after (exec (.characterReceived .field 0x38) (State.reset.setAssembler .field (.body record)))).field
    u.lastDiscard = .charError ∧ u.idle = .running 24 ∧ u.awaitMarking = false := by decide +kernel
/-- R12: a frame whose check holds reaches its owner: a request the Handler, a SAMPLE the Poller, a STATUS the Zone
Controller. -/
theorem test_last_byte_delivers :
    (lastByte .kiln { address := 0x10, kind := 0x40, payload := [] } .reset).handler.intake = [front 0x40 []] ∧
    ((lastByte .field { address := 0x43, kind := 0x22, payload := [7, 0, 0, 0xC8] } (visiting .waiting)).poller.staging.map
      (·.nextPart)) = some 1 ∧
    ((lastByte .drive { address := 0x52, kind := 0x32, payload := [0, 1, 0xC3, 1, 0x90, 50, 0, 0, 0] }
      (exchanging .waiting)).zone 2).lastStatus = some status0 := by decide +kernel
/-- R138: the power-up frame of zone 0 is handed over before the first transmission. -/
theorem test_transmit_start : (after (exec (.transmitStart .drive) State.reset)).drive.slot.isSending = true := by
  decide +kernel
theorem test_power_up_rate : (after (exec (.powerUp ⟨7, 1, 2, 3⟩ ⟨false, false, false⟩) State.reset)).drive.rate = 2 := by
  decide +kernel

/-! ### Witnesses: the machine, framing and transmission -/

theorem witness_StepRunsFront : ({ State.reset with pending := [.minuteTick] } : State).pending = .minuteTick :: [] ∧
    State.reset.pending = [] := ⟨rfl, rfl⟩

/-- A start bit that is marking, twelve spacing positions, and a character. -/
theorem witness_CharactersSentAndReceived : positionValue 7 0 = true ∧ (∀ k < 12, positionValue 0 k = false) ∧
    positionValue (char 0 false) 0 = false ∧ positionValue (char 0 false) 11 = true := by decide

theorem witness_FrameRoundTrip :
    ({ address := 0x10, kind := 0x40, payload := List.replicate 80 0 } : Frame).payload.length ≤ 80 := by decide

/-- A pair that is closed, in FAULT and awaiting marking; HUNT and BODY of each line; an error tag, a new address, and
each position of a frame: kind, length 80, length 81, payload, both check bytes, right and wrong. -/
theorem witness_CharacterJudged :
    receive (char 0x10 true) =
      some { data := 0x10, mark := true, noise := false, parity := false, framing := false, brk := false } ∧
    (receive (char 0x50 false)).map (fun c => (c.data, c.mark)) = some (80, false) ∧
    (receive (char 0x51 false)).map (·.data.toNat) = some 81 ∧
    (receive (char 0x10 true ^^^ (7 <<< 30))).map (·.parity) = some true ∧
    (receive 0x38).map (fun c => (c.framing, c.brk)) = some (true, false) ∧
    (State.reset.setUnit .field (pairUnitReset (.fault .halted))).field.lineState.isFault = true ∧
    { State.reset.drive with slot := .sending scan [] }.slot.isSending = true ∧
    { State.reset.kiln with awaitMarking := true }.awaitMarking ≠ false ∧
    State.reset.field.slot.isSending = false ∧ State.reset.field.lineState.isFault = false ∧
    State.reset.field.awaitMarking = false ∧ State.reset.drive.slot.isSending = false ∧
    State.reset.drive.lineState.isFault = false ∧ State.reset.drive.awaitMarking = false ∧
    State.reset.kiln.awaitMarking = false ∧
    State.reset.field.assembler = .hunt ∧ State.reset.drive.assembler = .hunt ∧ State.reset.kiln.assembler = .hunt ∧
    (State.reset.setAssembler .field (.body record)).field.assembler = .body record ∧
    (State.reset.setAssembler .drive (.body record)).drive.assembler = .body record ∧
    (State.reset.setAssembler .kiln (.body record)).kiln.assembler = .body record ∧
    record.kind = none ∧ { record with kind := some 0x40 }.length = none ∧
    (bodyAt 1 []).payload.length < 1 ∧ (bodyAt 0 []).payload.length = 0 ∧ (bodyAt 0 []).check = [] ∧
    (nearEnd scan).kind = some 0x21 ∧ (nearEnd scan).length = some 3 ∧ (nearEnd scan).payload.length = 3 ∧
    (nearEnd scan).check = [highByte (crcOf scan.covered)] ∧
    (nearEnd scan).crc = ((highByte (crcOf scan.covered) ++ lowByte (crcOf scan.covered) : BitVec (8 + 8)) : Word16) ∧
    (nearEnd scan).crc ≠ ((highByte (crcOf scan.covered) ++ (lowByte (crcOf scan.covered) + 1) : BitVec (8 + 8)) : Word16) := by
  decide +kernel

/-- The Kiln receiver awaiting marking and not, with and without a frame completed just before. -/
theorem witness_BreakCharacter : State.reset.kiln.awaitMarking = false ∧ State.reset.handler.completed = none ∧
    { State.reset.kiln with awaitMarking := true }.awaitMarking = true ∧
    { handlerReset with completed := some { frame := front 0x40 [], discardBefore := .none } }.completed =
      some { frame := front 0x40 [], discardBefore := .none } ∧
    (State.reset.setUnit .drive (pairUnitReset (.fault .running))).drive.lineState.isFault = true ∧
    (State.reset.unit .field).slot.isSending = false ∧ (State.reset.unit .field).lineState.isFault = false ∧
    (State.reset.unit .field).awaitMarking = false ∧ (State.reset.unit .field).assembler = .hunt ∧
    ((State.reset.setAssembler .field (.body record)).unit .field).assembler = .body record := by decide +kernel

theorem witness_SpellsAndMarking : (State.reset.unit .field).pairSpacing = false := rfl

/-- HUNT and BODY of each line, with an attempt or exchange in each phase or none. -/
theorem witness_GapLimit : State.reset.field.assembler = .hunt ∧ State.reset.drive.assembler = .hunt ∧
    State.reset.kiln.assembler = .hunt ∧
    ((visiting .waiting).setAssembler .field (.body record)).field.assembler = .body record ∧
    ((exchanging .waiting).setAssembler .drive (.body record)).drive.assembler = .body record ∧
    (State.reset.setAssembler .kiln (.body record)).kiln.assembler = .body record ∧
    State.reset.poller.staging = none ∧ (visiting .sending).poller.staging = some (attempt .sending) ∧
    (attempt .sending).phase = .sending ∧ (visiting .waiting).poller.staging = some (attempt .waiting) ∧
    (attempt .waiting).phase = .waiting ∧
    State.reset.zones.exchange = none ∧ (exchanging .sending).zones.exchange = some (exchangeOf .sending) ∧
    (exchangeOf .sending).phase = .sending ∧ (exchanging .waiting).zones.exchange = some (exchangeOf .waiting) ∧
    (exchangeOf .waiting).phase = .waiting := by decide +kernel

/-- A spell on each line, in a schedule that is not engaged, RUNNING and HELD, with a free fault record and with one of
the line, an exchange in flight and a frame pending for a zone in AUTO. -/
theorem witness_StuckLimit :
    let spell (s : State) (l : PairLine) := s.setUnit l { s.unit l with spell := .running 40 }
    let idle := spell (exchanging .sending) .drive
    let running := spell ((scheduled dryStep 0 .running).setZone 0 { zoneReset with mode := .auto }) .field
    let held := spell (scheduled dryStep 0 .held starved) .drive
    (idle.unit .drive).spell = .running 40 ∧ (idle.unit .drive).lineState.isFault = false ∧
    idle.sequencer.state ≠ .running ∧ idle.sequencer.engaged = false ∧ idle.faults.records[0] = none ∧
    idle.zones.exchange = some (exchangeOf .sending) ∧ powerUpEntry ∈ idle.zones.queue ∧
    (running.unit .field).spell = .running 40 ∧ (running.unit .field).lineState.isFault = false ∧
    (running.sequencer.causes.isEmpty = false ↔ running.sequencer.state = .held) ∧ running.sequencer.state = .running ∧
    powerUpEntry ∈ running.zones.queue ∧ (running.zone powerUpEntry.zone).mode = .auto ∧
    (held.unit .drive).spell = .running 40 ∧ (held.unit .drive).lineState.isFault = false ∧
    (held.sequencer.causes.isEmpty = false ↔ held.sequencer.state = .held) ∧ held.sequencer.engaged = true ∧
    ((raiseFault (.line .field) .lineStuck none running).faults.records[0].map
      (fun r => (r.source, r.reason))) = some (.line .field, .lineStuck) := by decide +kernel

/-- A frame waiting with the assembler in HUNT and in BODY, and a frame being sent, on each line. -/
theorem witness_TransmitStartAndEnd :
    let put (s : State) (l : PairLine) (slot : TxSlot) := s.setUnit l { s.unit l with slot := slot }
    (put .reset .field (.waiting scan)).field.slot = .waiting scan ∧ State.reset.field.idle = .running 24 ∧
    (put .reset .field (.waiting scan)).field.lineState.isFault = false ∧ State.reset.field.assembler = .hunt ∧
    ((put .reset .field (.waiting scan)).setAssembler .field (.body record)).field.assembler = .body record ∧
    (openExchange State.reset).drive.slot = .waiting (powerUpFrame.toFrame 0) ∧ State.reset.drive.idle = .running 24 ∧
    State.reset.drive.lineState.isFault = false ∧ State.reset.drive.assembler = .hunt ∧
    (openExchange (State.reset.setAssembler .drive (.body record))).drive.slot = .waiting (powerUpFrame.toFrame 0) ∧
    (put (visiting .sending) .field (.sending scan scan.wire)).field.slot = .sending scan scan.wire ∧
    (put (visiting .sending) .field (.sending scan scan.wire)).poller.staging = some (attempt .sending) ∧
    (put (exchanging .sending) .drive (.sending scan scan.wire)).drive.slot = .sending scan scan.wire ∧
    (put (exchanging .sending) .drive (.sending scan scan.wire)).zones.exchange = some (exchangeOf .sending) := by
  decide +kernel

/-- A reply in the reply place; the Kiln unit with none, one and two replies. -/
theorem witness_ReplyPath :
    let r : Reply := { frame := { address := 0x10, kind := 0x70, payload := [0x53, 0, 0] }, requestKind := 0x53 }
    let x : SendingReply := { frame := r.frame, wire := r.frame.wire }
    let s : State := { State.reset with handler := { handlerReset with replyPlace := some r } }
    s.handler.replyPlace = some r ∧ s.kiln.waiting = none ∧ s.kiln.sending = none ∧
    ({ s with kiln := { s.kiln with sending := some x } } : State).kiln.sending = some x ∧
    ({ s with kiln := { s.kiln with sending := some x, waiting := some r.frame } } : State).kiln.waiting = some r.frame := by
  decide +kernel

/-! ### Witnesses: polling -/

/-- A timer that runs in IDLE with node 3 due, in CYCLING and in DRAINING; no node due; and a stopped timer. -/
theorem witness_CycleTimer :
    let idle := { visiting .waiting with poller := { (visiting .waiting).poller with phase := .idle } }
    idle.poller.cycleTimer = .running 60 ∧ idle.poller.phase = .idle ∧ (idle.node 3).state = .online ∧
    (∀ m : Fin 16, m < 3 → ¬ ((idle.node m).state = .online ∨
      ((idle.node m).state = .absent ∧ idle.poller.nextCycle.toNat % 8 = 0))) ∧ idle.field.lineState.isFault = false ∧
    (∀ m : Fin 16, (State.reset.node m).state = .vacant) ∧ (visiting .waiting).poller.phase = .cycling ∧
    (visiting .waiting).poller.cycleTimer = .running 60 ∧
    { pollerReset with phase := .draining, cycleTimer := .running 60 }.phase = .draining ∧
    State.reset.poller.cycleTimer = .stopped := by decide +kernel

/-- An attempt in WAITING: with its node lost, in DRAINING, with a retry left and at the retry limit; and a miss below and
at the miss limit of an ONLINE node, and of an ABSENT one. -/
theorem witness_ScanTimeoutAndMiss :
    (visiting .waiting).poller.staging = some (attempt .waiting) ∧ (attempt .waiting).phase = .waiting ∧
    { attempt .waiting with lost := true }.lost = true ∧ (attempt .waiting).lost = false ∧
    (visiting .waiting).poller.phase ≠ .draining ∧ (attempt .waiting).retries < (visiting .waiting).param .retryLimit ∧
    (visiting .waiting).field.lineState.isFault = false ∧
    (visiting .waiting).param .retryLimit ≤ { attempt .waiting with retries := 1 }.retries ∧
    ((visiting .waiting).node 3).state = .online ∧
    min (((visiting .waiting).node 3).misses + 1) 15 < (visiting .waiting).param .missLimit ∧
    (visiting .waiting).param .missLimit ≤ min ({ (visiting .waiting).node 3 with misses := 2 }.misses + 1) 15 ∧
    { (visiting .waiting).node 3 with state := .absent }.state = .absent ∧
    (visiting .sending).poller.staging = some (attempt .sending) ∧ (attempt .sending).phase = .sending ∧
    State.reset.poller.staging = none := by decide +kernel

/-- The end of a visit of `witness_ScanTimeoutAndMiss`'s statement: in CYCLING with node 3 at the visiting position and past
it, ABSENT at the cycle number 8 and at 9, and in DRAINING. -/
theorem witness_ScanTimeoutAndMiss_visit :
    let at3 (p : Nat) (c : Word16) (ph : PollPhase) : State := { visiting .waiting with
      poller := { (visiting .waiting).poller with phase := ph, visitPos := p, currentCycle := some c } }
    let absent : NodeEntry := { nodeReset with state := .absent, mask := 3 }
    (at3 3 8 .cycling).poller.currentCycle = some 8 ∧ (at3 3 8 .cycling).poller.phase = .cycling ∧
    (at3 3 8 .cycling).poller.visitPos ≤ (3 : Fin 16).val ∧ ((at3 3 8 .cycling).node 3).state = .online ∧
    (∀ m : Fin 16, m < 3 → ¬ (at3 3 8 .cycling).poller.visitPos ≤ m.val) ∧
    (at3 3 8 .cycling).field.lineState.isFault = false ∧
    (∀ m : Fin 16, (at3 4 8 .cycling).poller.visitPos ≤ m.val → ((at3 4 8 .cycling).node m).state = .vacant) ∧
    absent.state = .absent ∧ (8 : Word16).toNat % 8 = 0 ∧ (9 : Word16).toNat % 8 ≠ 0 ∧
    (at3 3 8 .draining).poller.phase = .draining := by decide +kernel

/-- No attempt in flight; part 0 of an answer with LAST and both channels, without LAST, with one channel missing, and each frame that fails a
screen: another tag, an empty payload, a wrong length, a duplicate and a part too far. -/
theorem witness_SampleScreened :
    let st := attempt .waiting
    let whole : List Byte := [7, 0x80, 0x00, 0xC8, 0, 0x05, 0xDC, 1, 0x05, 0xDC]
    (visiting .waiting).poller.staging = some st ∧ st.phase = .waiting ∧ (0x43 : Byte) = 0x40 + BitVec.ofNat 8 st.node.val ∧
    whole.length = 10 ∧ byteAt whole 0 = st.tag ∧ (byteAt whole 1).toNat % 4 = st.nextPart ∧
    (byteAt whole 1).getLsbD 7 = true ∧
    scanWhole st.mask [⟨0, 1500, .valid⟩, ⟨1, 1500, .valid⟩] = true ∧ scanWhole st.mask [⟨0, 1500, .valid⟩] = false ∧
    st.lost = false ∧ { st with lost := true }.lost = true ∧
    (byteAt [7, 0, 0, 0] 1).getLsbD 7 = false ∧ byteAt [6, 0, 0, 0] 0 ≠ st.tag ∧ ([7, 0, 0, 0, 0] : List Byte).length = 5 ∧
    (byteAt [7, 3, 0, 0] 1).toNat % 4 > st.nextPart ∧ (byteAt [7, 0, 0, 0] 1).toNat % 4 < { st with nextPart := 1 }.nextPart ∧
    (attempt .sending).phase ≠ .waiting ∧ State.reset.poller.staging = none := by decide +kernel

/-- A NOISY scan at the marginal limit with the node's temperature at fault, from an ABSENT node; and a channel that two
entries name, held by probe 191 in SETTLING and in STALE, and by none. -/
theorem witness_ScanCommit :
    let st := { attempt .waiting with noisy := true, temp := some { value := 200, fault := true } }
    let es : List ChannelEntry := [⟨1, 700, .valid⟩, ⟨0, 800, .valid⟩, ⟨0, 900, .valid⟩]
    st.noisy = true ∧ st.temp = some { value := 200, fault := true } ∧ State.reset.param .marginalLimit = 4 ∧
    { nodeReset with state := .absent, marginal := 3 }.state = .absent ∧ min (3 + 1) 15 = 4 ∧
    ((withProbe .stale).probe 191).state = .stale ∧
    (((withProbe .stale).probe 191).mapping.map fun m => (m.node.val, m.channel.val)) = some (st.node.val, 0) ∧
    ((withProbe .settling).probe 191).isMapped = true ∧
    (∀ j : Fin 192, j < 191 → ((withProbe .settling).probe j).isMapped = false) ∧
    es = [⟨1, 700, .valid⟩] ++ ⟨0, 800, .valid⟩ :: [⟨0, 900, .valid⟩] ∧
    (∀ y ∈ ([⟨1, 700, .valid⟩] : List ChannelEntry), y.channel ≠ 0) ∧ (∀ x ∈ es, x.channel ≠ (2 : Fin 16).val) ∧
    (entryIn .excluded).state = .excluded ∧ (State.reset.probe 0).mapping = none := by decide +kernel

/-! ### Witnesses: readings, figures and zones -/

theorem witness_FilterUpdate : (250 : Nat) ≤ 250 ∧ (200 : Nat) + 1 = 201 ∧ (201 : Nat) < 250 ∧ (16 : Nat) ≤ 16 ∧
    ChannelStatus.valid.rejects = none ∧ (entryIn .settling).state = .settling ∧
    { entryIn .settling with filtered := none }.filtered = none ∧
    { entryIn .suspect with held := some 100 }.held = some 100 ∧
    ¬ ((250 : Nat) ≤ 130 + 30 ∧ 130 ≤ 250 + 30) ∧ (100 ≤ 130 + 30 ∧ 130 ≤ 100 + 30) := by decide

/-- Readings at the jump limit of 30 and one past it, in each state that takes readings, with and without a held MC. -/
theorem witness_ReadingJudged : (entryIn .settling).state = .settling ∧ (entryIn .active).filtered = some 250 ∧
    (250 ≤ 280 + 30 ∧ 280 ≤ 250 + 30) ∧ ¬ (250 ≤ 281 + 30 ∧ 281 ≤ 250 + 30) ∧ (entryIn .suspect).held = none ∧
    { entryIn .suspect with held := some 311 }.held = some 311 ∧ (311 ≤ 281 + 30 ∧ 281 ≤ 311 + 30) ∧
    ¬ (312 ≤ 281 + 30 ∧ 281 ≤ 312 + 30) ∧ ChannelStatus.openCircuit.rejects = some .openCircuit ∧
    ChannelStatus.guarded.rejects = some .guarded ∧ (entryIn .excluded).state = .excluded := by decide

/-- Corrected codes below, at, between and above the points of profile 2, and each temperature source in turn. -/
theorem witness_ConversionMonotone : curveOk profile2.points = true ∧ profile2.points.head? = some ⟨600, 300⟩ ∧
    profile2.points.getLast? = some ⟨3600, 70⟩ ∧ (599 : Nat) ≤ 600 ∧ (0 : Int) ≤ 1200 ∧ 0 < profile2.kt ∧
    (convertOn profile2 .node 200 599).corrected < 600 ∧ (convertOn profile2 .node 200 600).corrected = 600 ∧
    3600 < (convertOn profile2 .node 200 3601).corrected ∧ (convertOn profile2 .node 200 3600).corrected = 3600 ∧
    profile2.points[1]? = some ⟨1200, 220⟩ ∧ profile2.points[1 + 1]? = some ⟨1800, 160⟩ ∧
    1200 ≤ (convertOn profile2 .node 200 1799).corrected ∧ (convertOn profile2 .node 200 1799).corrected < 1800 ∧
    ({ nodeReset with lastTemp := some { value := 200, fault := false } } : NodeEntry).lastTemp =
      some { value := 200, fault := false } ∧ nodeReset.lastTemp = none ∧
    ({ zoneReset with lastStatus := some status0, age := 2 } : ZoneEntry).lastStatus = some status0 ∧
    ({ zoneReset with lastStatus := some status0, age := 2 } : ZoneEntry).age ≤ 2 ∧ zoneReset.lastStatus = none ∧
    (scheduled dryStep 0 .running).sequencer.engaged = true ∧
    (scheduled dryStep 0 .running).sequencer.working = some 4500 ∧ RoundedQuotient 450 4500 10 ∧
    State.reset.sequencer.engaged = false := by
  refine ⟨?_, ?_, ?_, ?_, ?_, ?_, ?_, ?_, ?_, ?_, ?_, ?_, ?_, ?_, ?_, ?_, ?_, ?_, ?_, ?_, ?_, ?_, ?_⟩ <;>
    first | decide +kernel | exact ⟨fun _ => by decide, fun h => absurd h (by decide)⟩

/-- A table with a contributor; the parameters within their limits. -/
theorem witness_WetRanking : ProbesSound (withProbe .active).probes ∧ FiguresSound (withProbe .active).probes ∧
    ((withProbe .active).probe 191).state = .active := by
  have unset (i : Fin 192) (h : i ≠ 191) : (withProbe .active).probes[i] = probeReset := by
    exact (Vector.getElem_set_ne (by decide) i.isLt fun e => h (Fin.ext e.symm)).trans (Vector.getElem_replicate i.isLt)
  have set : (withProbe .active).probes[(191 : Fin 192)] = entryIn .active := by decide +kernel
  have empty (i : Fin 192) (a : Mapping) (h : (withProbe .active).probes[i].mapping = some a) : i = 191 := by
    by_contra h'; rw [unset i h'] at h; cases h
  refine ⟨⟨fun i => ?_, fun i j a b hi hj _ _ => (empty i a hi).trans (empty j b hj).symm⟩, fun i => ?_, ?_⟩
  · by_cases h : i = 191
    · subst h; rw [set]; rfl
    · rw [unset i h]; rfl
  · by_cases h : i = 191
    · subst h; rw [set]; exact fun _ => rfl
    · rw [unset i h]; exact fun h => by rcases h with h | h <;> cases h
  · exact congrArg ProbeEntry.state set

/-- Five entries in ACTIVE. -/
def fiveWet : State :=
  { State.reset with
    probes := (List.range 5).foldl (fun v i => v.setIfInBounds i (entryIn .active)) (Vector.replicate 192 probeReset) }

/-- Parameters within their limits; five contributors at the default discard of 1 and minimum of 4, and none. -/
theorem witness_EstimateFigures :
    (∀ i : Fin 23, paramLows[i] ≤ State.reset.params[i] ∧ State.reset.params[i] ≤ paramHighs[i]) ∧
    fiveWet.params = State.reset.params ∧ (formEstimate fiveWet).ranking.length = 5 ∧
    (formEstimate State.reset).ranking = [] ∧ fiveWet.param .chargeDiscard = 1 ∧ fiveWet.param .chargeMinimum = 4 := by
  decide +kernel

theorem witness_EnvelopeClamp : ({ envelopeReset with dryCeiling := 1 } : Envelope).dryFloor ≤ 1 := by decide

/-- Zones in AUTO and in OFF, with the schedule EMPTY and RUNNING; an exchange in flight, a line that is not RUNNING, and a
RUNNING line with an empty queue and nothing in flight. -/
theorem witness_ScheduleEventBuilds :
    let zone := (scheduled dryStep 0 .running).setZone 7 { zoneReset with mode := .auto }
    let bare : State := { zone with zones := { zone.zones with queue := [] } }
    (zone.zone 0).mode ≠ .auto ∧ (zone.zone 7).mode = .auto ∧ zone.sequencer.engaged = true ∧
    zone.sequencer.currentStep = some dryStep ∧ zone.sequencer.working = some 4500 ∧
    ((State.reset.setZone 7 { zoneReset with mode := .auto }).zone 7).mode = .auto ∧
    State.reset.sequencer.engaged = false ∧ (∀ z : Fin 8, (State.reset.zone z).mode ≠ .auto) ∧
    ((exchanging .sending).zones.queue.map (·.zone)).Nodup ∧ (exchanging .sending).zones.exchange ≠ none ∧
    (pairUnitReset .halted).lineState ≠ .running ∧ bare.zones.exchange = none ∧ bare.drive.lineState = .running ∧
    bare.zones.queue = [] ∧ ((List.finRange 8).filter fun z => decide ((bare.zone z).mode = .auto)) = [7] := by
  decide +kernel

def record0 : ManualRecord := { fanRun := true, direction := .forward, stage := .dry, setpoints := none }

/-- A zone in each mode, in MANUAL with and without a record; a queue sound with an exchange in flight and without. -/
theorem witness_DrivePeriod : State.reset.sequencer.engaged = false ∧
    (scheduled dryStep 0 .held starved).sequencer.engaged = true ∧
    (scheduled dryStep 0 .held starved).sequencer.currentStep = some dryStep ∧
    (scheduled dryStep 0 .held starved).sequencer.working = some 4500 ∧ zoneReset.mode = .off ∧ { zoneReset with mode := .auto }.mode = .auto ∧
    { zoneReset with mode := .manual }.manual = none ∧
    { zoneReset with mode := .manual, manual := some record0 }.manual = some record0 ∧
    ((exchanging .sending).zones.queue.map (·.zone)).Nodup ∧
    (exchanging .sending).zones.exchange = some (exchangeOf .sending) ∧
    (State.reset.zones.queue.map (·.zone)).Nodup ∧ State.reset.zones.exchange = none := by decide +kernel

/-- A queue whose oldest frame has no setpoints, and a frame with setpoints. -/
theorem witness_ExchangeOpens : State.reset.zones.exchange = none ∧
    State.reset.zones.queue.head? = some { zone := 0, frame := powerUpFrame, modeAtBuild := .off } ∧
    State.reset.drive.lineState = .running ∧ (exchanging .sending).zones.exchange ≠ none ∧
    (pairUnitReset (.fault .running)).lineState ≠ .running ∧ powerUpFrame.setpoints = none ∧
    { powerUpFrame with setpoints := some { dry := 500, wet := 450 } }.setpoints =
      some { dry := 500, wet := 450 } := by decide +kernel

/-- An exchange in each phase and none, a miss below and at the limit, and a STATUS answer and one of another length. -/
theorem witness_DriveAnswer : (exchanging .waiting).zones.exchange = some (exchangeOf .waiting) ∧
    (exchangeOf .waiting).phase = .waiting ∧ (exchangeOf .sending).phase = .sending ∧
    ((exchanging .waiting).zone 2).driver ≠ .silent ∧
    min (((exchanging .waiting).zone 2).misses + 1) 15 < (exchanging .waiting).param .driveMissLimit ∧
    (exchanging .waiting).param .driveMissLimit ≤ min ({ (exchanging .waiting).zone 2 with misses := 2 }.misses + 1) 15 ∧
    (0x52 : Byte) = 0x50 + BitVec.ofNat 8 (exchangeOf .waiting).entry.zone.val ∧ (0x53 : Byte) ≠ 0x52 ∧
    byteAt [0, 0, 0, 0, 0, 0, 0, 0, 0] 0 = (exchangeOf .waiting).entry.frame.tag ∧
    ([0, 0, 0, 0, 0, 0, 0, 0] : List Byte).length ≠ 9 ∧ State.reset.zones.exchange = none := by decide +kernel

/-! ### Witnesses: the minute clock and the schedule -/

/-- A target above, at and below the basis, with and without a ramp rate. -/
theorem witness_RampRules : heatStep.rampRate = 0 ∧ dryStep.rampRate ≠ 0 ∧ (5500 : Int) ≤ 10 * dryStep.target ∧
    10 * (dryStep.target : Int) ≤ 5501 := by decide

/-- No engaged schedule, HELD, and RUNNING one minute short of the limit, off and on the fan interval. -/
theorem witness_MinuteTick : State.reset.sequencer.engaged = false ∧
    (scheduled dryStep 0 .held starved).sequencer.state = .held ∧
    (scheduled dryStep 598 .running).sequencer.currentStep = some dryStep ∧
    (scheduled dryStep 598 .running).sequencer.basis = some 4500 ∧
    (scheduled dryStep 598 .running).sequencer.elapsed + 1 < dryStep.maximum ∧ ¬ dryStep.fanInterval ∣ 598 + 1 ∧
    dryStep.fanInterval ∣ (scheduled dryStep 29 .running).sequencer.elapsed + 1 ∧ 0 < dryStep.fanInterval ∧
    heatStep.fanInterval = 0 := by decide +kernel

/-- The last minute of a step that is followed by another, and of the last step. -/
theorem witness_StepLimit :
    let s := scheduled dryStep 599 .running
    (s.sequencer.causes.isEmpty = false ↔ s.sequencer.state = .held) ∧ s.sequencer.state = .running ∧
    s.sequencer.stepIndex = some 0 ∧ s.sequencer.stepAt 0 = some dryStep ∧ s.sequencer.working = some 4500 ∧
    dryStep.maximum ≤ s.sequencer.elapsed + 1 ∧ 0 + 1 < s.sequencer.stepCount ∧
    s.sequencer.stepAt 1 = some heatStep ∧ (atLast .running).sequencer.stepIndex = some 1 ∧
    (atLast .running).sequencer.stepAt 1 = some heatStep ∧
    heatStep.maximum ≤ (atLast .running).sequencer.elapsed + 1 ∧ (atLast .running).sequencer.stepCount ≤ 1 + 1 := by
  decide +kernel

/-- An Estimate without contributors, and a SUFFICIENT one at the threshold of the current condition step. -/
theorem witness_EstimateTaken :
    let e := { formEstimate State.reset with sufficient := true, chargeCmc := some 150, spread := some 40 }
    (formEstimate State.reset).sufficient = false ∧ (formEstimate State.reset).chargeCmc = none ∧
    (formEstimate State.reset).spread = none ∧ e.sufficient = true ∧ dryStep.threshold = some 150 ∧
    dryStep.condition = .mcBelow ∧ e.chargeCmc = some 150 ∧
    (scheduled dryStep 0 .running).sequencer.currentStep = some dryStep ∧
    (scheduled heatStep 0 .running).sequencer.currentStep = some heatStep ∧ heatStep.condition = .time ∧
    (scheduled dryStep 0 .running).sequencer.engaged = true ∧ State.reset.sequencer.engaged = false ∧
    (scheduled dryStep 0 .held starved).sequencer.stepIndex = some 0 ∧
    0 + 1 < (scheduled dryStep 0 .held starved).sequencer.stepCount ∧
    (scheduled dryStep 0 .held starved).sequencer.stepAt 1 = some heatStep ∧
    (scheduled dryStep 0 .held starved).sequencer.working = some 4500 ∧
    (atLast .running).sequencer.stepIndex = some 1 ∧ (atLast .running).sequencer.stepCount ≤ 1 + 1 := by
  decide +kernel

/-! ### Witnesses: requests. `asked` meets `Asked` of any state; what remains is the payload and the state. -/

theorem witness_PartRequests : Asked (ask .reset 0x40 []) 0x40 (front 0x40 []) [] ∧
    Asked (ask .reset 0x41 [0]) 0x41 (front 0x41 [0]) [] ∧ Asked (ask .reset 0x44 [0, 0, 2]) 0x44 (front 0x44 [0, 0, 2]) [] ∧
    1 < (2 : Byte).toNat := ⟨asked _ _ _, asked _ _ _, asked _ _ _, by decide⟩

/-- Ids 0, 1, 23 and 24. -/
theorem witness_ConfigRequests : Asked (ask .reset 0x42 [1, 0, 9]) 0x42 (front 0x42 [1, 0, 9]) [] ∧
    Asked (ask .reset 0x43 [23]) 0x43 (front 0x43 [23]) [] ∧ (0 : Byte).toNat = 0 ∧ 23 < (24 : Byte).toNat ∧
    (1 : Byte).toNat = (0 : Fin 23).val + 1 ∧ (23 : Byte).toNat = (22 : Fin 23).val + 1 :=
  ⟨asked _ _ _, asked _ _ _, by decide⟩

/-- Both lines, a line number past them, and an exchange abandoned: unsent with nothing pending of its zone in the mode it
was built in, unsent with a pending frame, unsent in another mode, and sent whole. -/
theorem witness_LineRestart : Asked (ask .reset 0x54 [0]) 0x54 (front 0x54 [0]) [] ∧
    Asked (ask .reset 0x54 [1]) 0x54 (front 0x54 [1]) [] ∧ Asked (ask .reset 0x54 []) 0x54 (front 0x54 []) [] ∧
    1 < (2 : Byte).toNat ∧ (pairUnitReset (.fault .halted)).lineState.isFault = true ∧
    State.reset.zones.exchange = none ∧
    (openExchange State.reset).zones.exchange.map (fun x => (x.entry.zone.val, x.phase)) = some (0, .sending) ∧
    (∀ q ∈ (openExchange State.reset).zones.queue, q.zone ≠ 0) ∧
    ((openExchange State.reset).zone 0).mode = .off ∧ powerUpEntry.modeAtBuild = .off ∧
    (∃ q ∈ (exchanging .sending).zones.queue, q.zone = 2) ∧ { powerUpEntry with modeAtBuild := .auto }.modeAtBuild ≠ .off ∧
    (exchangeOf .waiting).phase ≠ .sending :=
  ⟨asked _ _ _, asked _ _ _, asked _ _ _, by decide +kernel⟩

/-- A kind outside the catalogue, and a full reply place. -/
theorem witness_UnknownKindRefused : AtFront (ask .reset 0x70 []) (front 0x70 []) [] ∧
    (front 0x70 []).cls.isWindow = false ∧ (∀ i : Instr, kindOfRequest i ≠ some (front 0x70 []).kind) ∧
    (kindOfRequest .identify).isSome = true ∧
    ({ handlerReset with replyPlace := some ⟨⟨0x10, 0x71, []⟩, 0⟩ } : Handler).replyPlace = some ⟨⟨0x10, 0x71, []⟩, 0⟩ := by
  refine ⟨⟨rfl, rfl⟩, rfl, fun i => ?_, rfl, rfl⟩
  cases i <;> simp only [kindOfRequest] <;> decide

/-- The points (1000, 260), (3000, 60) for profile 7, a profile 8, a short payload, and a mapped user while the schedule
runs. -/
theorem witness_CurveRequests :
    let p : List Byte := [7, 50, 2, 3, 0xE8, 1, 4, 0x0B, 0xB8, 0, 60]
    Asked (ask .reset 0x48 p) 0x48 (front 0x48 p) [] ∧ Asked (ask .reset 0x49 [7]) 0x49 (front 0x49 [7]) [] ∧
    3 ≤ p.length ∧ p.length = 3 + 4 * (byteAt p 2).toNat ∧ (byteAt p 0).toNat = (7 : Fin 8).val ∧
    2 ≤ (byteAt p 2).toNat ∧ (byteAt p 2).toNat ≤ 16 ∧
    (∀ i < 2, u16At p (3 + 4 * i) ≤ 4095 ∧ u16At p (5 + 4 * i) ≤ 1200) ∧
    u16At p 3 < u16At p 7 ∧ u16At p 9 < u16At p 5 ∧
    7 < (8 : Byte).toNat ∧ ([7, 50] : List Byte).length < 3 ∧
    ((withProbe .stale).probe 191).isMapped = true ∧ (scheduled dryStep 0 .running).sequencer.engaged = true ∧
    State.reset.sequencer.engaged = false :=
  ⟨asked _ _ _, asked _ _ _, by decide +kernel⟩

/-- A state with profile 7 loaded beside that of `withProbe`. -/
def mappable (st : ProbeState) : State :=
  { withProbe st with curves := (Vector.replicate 8 profileReset).set 7 profile2 }

/-- The highest probe, node, channel, zone and profile, each one past it, an entry in use and a channel in use. -/
theorem witness_MapProbe :
    let p : List Byte := [190, 15, 15, 7, 7]
    let m : Mapping := { node := 15, channel := 15, zone := 7, profile := 7 }
    Asked (ask (mappable .active) 0x4C p) 0x4C (front 0x4C p) [] ∧ 191 < (192 : Byte).toNat ∧ 15 < (16 : Byte).toNat ∧
    7 < (8 : Byte).toNat ∧ (mappable .active).curves[(0 : Fin 8)].loaded = false ∧
    (15 : Byte).toNat = m.node.val ∧ (7 : Byte).toNat = m.profile.val ∧
    (mappable .active).curves[m.profile].loaded = true ∧ ((mappable .active).probe 191).isMapped = true ∧
    ((mappable .active).probe 190).isMapped = false ∧
    ((mappable .active).probe 191).mapping = some { node := 3, channel := 0, zone := 2, profile := 2 } :=
  ⟨asked _ _ _, by decide +kernel⟩

/-- The run of probe 191 and exponent 7, one past each, a mapped entry of a node and a visit in flight. -/
theorem witness_UnmapProbes : Asked (ask (withProbe .active) 0x4D [191, 7]) 0x4D (front 0x4D [191, 7]) [] ∧
    191 < (192 : Byte).toNat ∧ 7 < (8 : Byte).toNat ∧ (191 : Byte).toNat ≤ 191 ∧ (7 : Byte).toNat ≤ 7 ∧
    191 / 2 ^ 7 * 2 ^ 7 ≤ 191 ∧ 191 < 191 / 2 ^ 7 * 2 ^ 7 + 2 ^ 7 ∧
    (((withProbe .active).probe 191).mapping.map fun m => (m.node.val, m.channel.val)) = some (3, 0) ∧
    ((visiting .waiting).node 3).mask.getLsbD 0 = true ∧ (visiting .waiting).poller.staging = some (attempt .waiting) ∧
    State.reset.poller.staging = none :=
  ⟨asked _ _ _, by decide +kernel⟩

theorem witness_ExcludeInclude : Asked (ask (withProbe .active) 0x4E [191, 7]) 0x4E (front 0x4E [191, 7]) [] ∧
    Asked (ask (withProbe .excluded) 0x4F [191, 0]) 0x4F (front 0x4F [191, 0]) [] ∧ 191 < (192 : Byte).toNat ∧
    7 < (8 : Byte).toNat ∧ (191 : Byte).toNat ≤ 191 ∧ (7 : Byte).toNat ≤ 7 := ⟨asked _ _ _, asked _ _ _, by decide⟩

theorem witness_ReadProbeAndNode : Asked (ask (withProbe .active) 0x50 [191]) 0x50 (front 0x50 [191]) [] ∧
    Asked (ask (visiting .waiting) 0x51 [15]) 0x51 (front 0x51 [15]) [] ∧ 191 < (192 : Byte).toNat ∧
    (191 : Byte).toNat = (191 : Fin 192).val ∧ 15 < (16 : Byte).toNat ∧ (15 : Byte).toNat = (15 : Fin 16).val :=
  ⟨asked _ _ _, asked _ _ _, by decide⟩

/-- The Field Line HALTED, RUNNING and in FAULT, with the Poller in each phase, and an engaged schedule. -/
theorem witness_FieldStartHalt : Asked (ask .reset 0x52 []) 0x52 (front 0x52 []) [] ∧
    Asked (ask .reset 0x53 [0]) 0x53 (front 0x53 [0]) [] ∧ State.reset.field.lineState = .halted ∧
    State.reset.poller.phase = .idle ∧ (scheduled dryStep 0 .ended).field.lineState = .running ∧
    (pairUnitReset (.fault .running)).lineState = .fault .running ∧ (scheduled dryStep 0 .held starved).sequencer.engaged = true ∧
    (scheduled dryStep 0 .ended).sequencer.engaged = false ∧ (visiting .waiting).poller.phase = .cycling ∧
    (visiting .waiting).poller.staging ≠ none ∧ { pollerReset with phase := .draining }.phase = .draining :=
  ⟨asked _ _ _, asked _ _ _, by decide +kernel⟩

theorem witness_EstimateReadings : Asked (ask .reset 0x58 []) 0x58 (front 0x58 []) [] ∧
    Asked (ask .reset 0x59 [191]) 0x59 (front 0x59 [191]) [] ∧ 191 < (192 : Byte).toNat ∧ (191 : Byte).toNat ≤ 191 ∧
    State.reset.estimator.current = none ∧
    (closeEstimate State.reset).estimator.current = some (formEstimate State.reset) :=
  ⟨asked _ _ _, asked _ _ _, by decide +kernel⟩

/-- A sound record for index 23, an index of 24, an unsound kind, the current index of a running schedule; counts 0, 1, 24
and 25. -/
theorem witness_StepTable :
    let p : List Byte := [23, 1, 1, 194, 0, 20, 0, 0, 0, 0, 0, 0, 120, 0, 0, 0, 0]
    let two := fun i : Nat => (byteAt p i).toNat * 256 + (byteAt p (i + 1)).toNat
    Asked (ask .reset 0x5C p) 0x5C (front 0x5C p) [] ∧ Asked (ask .reset 0x5E [24]) 0x5E (front 0x5E [24]) [] ∧
    p.length = 17 ∧ (byteAt p 0).toNat = (23 : Fin 24).val ∧ (byteAt p 1).toNat = 1 ∧ (byteAt p 6).toNat = 0 ∧
    (200 ≤ two 2 ∧ two 2 ≤ 1100) ∧ two 4 ≤ 400 ∧ two 13 ≤ 600 ∧ two 15 ≤ 1440 ∧ 1 ≤ two 11 ∧ two 9 ≤ two 11 ∧ two 9 = 0 ∧
    23 < (24 : Byte).toNat ∧ ¬ (6 : Byte).toNat ≤ 5 ∧ (scheduled dryStep 0 .running).sequencer.stepIndex = some 0 ∧
    (scheduled dryStep 0 .running).sequencer.engaged = true ∧ State.reset.sequencer.engaged = false ∧
    (scheduled dryStep 0 .loaded).sequencer.stepAt 0 ≠ none ∧ (scheduled dryStep 0 .loaded).sequencer.stepAt 2 = none ∧
    24 < (25 : Byte).toNat ∧ { scheduled dryStep 0 .empty with uptime := 0 }.sequencer.state = .empty :=
  ⟨asked _ _ _, asked _ _ _, by decide +kernel⟩

/-- The first and last position, in a schedule that is not engaged and in one that is. -/
theorem witness_ScheduleReadings : Asked (ask .reset 0x5D [23]) 0x5D (front 0x5D [23]) [] ∧
    Asked (ask .reset 0x68 [23]) 0x68 (front 0x68 [23]) [] ∧ Asked (ask .reset 0x67 []) 0x67 (front 0x67 []) [] ∧
    23 < (24 : Byte).toNat ∧ (23 : Byte).toNat ≤ 23 ∧ State.reset.sequencer.engaged = false ∧
    (scheduled dryStep 0 .running).sequencer.engaged = true ∧
    (scheduled dryStep 0 .running).sequencer.currentStep = some dryStep ∧
    (scheduled dryStep 0 .running).sequencer.working = some 4500 :=
  ⟨asked _ _ _, asked _ _ _, asked _ _ _, by decide +kernel⟩

/-- LOADED with the Field Line RUNNING; a step at its count, an elapsed of the maximum and one below it. -/
theorem witness_StartResume :
    let s := scheduled dryStep 0 .loaded
    Asked (ask s 0x60 []) 0x60 (front 0x60 []) [] ∧ Asked (ask s 0x61 [0, 2, 87]) 0x61 (front 0x61 [0, 2, 87]) [] ∧
    s.sequencer.state = .loaded ∧ s.field.lineState = .running ∧ s.sequencer.stepAt 0 = some dryStep ∧
    State.reset.field.lineState ≠ .running ∧ s.sequencer.stepCount ≤ (2 : Byte).toNat ∧
    (0 : Byte).toNat < s.sequencer.stepCount ∧ dryStep.maximum ≤ (2 : Byte).toNat * 256 + (88 : Byte).toNat ∧
    (2 : Byte).toNat * 256 + (87 : Byte).toNat < dryStep.maximum :=
  ⟨asked _ _ _, asked _ _ _, by decide +kernel⟩

/-- RUNNING without a cause, HELD for one cause and for two, and a schedule that is not engaged. -/
theorem witness_HoldReleaseAbort :
    let both := { starved with manual := true }
    (∀ k : Byte, Asked (ask (scheduled dryStep 0 .held both) k []) k (front k []) []) ∧
    State.reset.sequencer.engaged = false ∧ (scheduled dryStep 0 .running).sequencer.engaged = true ∧
    (scheduled dryStep 0 .running).sequencer.causes.has .manual = false ∧
    (scheduled dryStep 0 .held starved).sequencer.state = .held ∧
    (scheduled dryStep 0 .held starved).sequencer.causes.has .starved = true ∧
    (starved.put .starved false).isEmpty = true ∧ (both.put .starved false).isEmpty = false :=
  ⟨fun _ => asked _ _ _, by decide +kernel⟩

theorem witness_SkipStep :
    let s := scheduled dryStep 0 .held starved
    Asked (ask s 0x64 []) 0x64 (front 0x64 []) [] ∧ Asked (ask s 0x64 [0]) 0x64 (front 0x64 [0]) [] ∧
    s.sequencer.engaged = true ∧ s.sequencer.stepIndex = some 0 ∧ s.sequencer.working = some 4500 ∧
    0 + 1 < s.sequencer.stepCount ∧ s.sequencer.stepAt 1 = some heatStep ∧
    (atLast .running).sequencer.stepCount ≤ 1 + 1 ∧ State.reset.sequencer.engaged = false :=
  ⟨asked _ _ _, asked _ _ _, by decide +kernel⟩

/-- EMPTY, where the state stays, ABORTED, where it changes, and an engaged schedule. -/
theorem witness_ChargeReset : Asked (ask .reset 0x66 []) 0x66 (front 0x66 []) [] ∧
    State.reset.sequencer.engaged = false ∧ State.reset.sequencer.stepCount = 0 ∧
    (scheduled dryStep 0 .aborted).sequencer.engaged = false ∧
    (scheduled dryStep 0 .held starved).sequencer.engaged = true ∧
    ((withProbe .stale).probe 191).state = .stale := ⟨asked _ _ _, by decide +kernel⟩

/-- Six values at the ends of the range, and one past each end. -/
theorem witness_EnvelopeRequests :
    let p : List Byte := [0xFE, 0x70, 5, 0xDC, 0xFE, 0x70, 5, 0xDC, 0, 0, 5, 0xDC]
    let v := fun i : Nat => (byteAt p i ++ byteAt p (i + 1)).toInt
    Asked (ask .reset 0x6A p) 0x6A (front 0x6A p) [] ∧ Asked (ask .reset 0x6B []) 0x6B (front 0x6B []) [] ∧
    p.length = 12 ∧ (∀ i < 6, -400 ≤ v (2 * i) ∧ v (2 * i) ≤ 1500) ∧ v 0 = -400 ∧ v 2 = 1500 ∧
    ¬ ((0x05 : Byte) ++ (0xDD : Byte)).toInt ≤ 1500 ∧ ¬ -400 ≤ ((0xFE : Byte) ++ (0x6F : Byte)).toInt ∧
    (scheduled dryStep 0 .running).sequencer.engaged = true ∧ State.reset.sequencer.engaged = false :=
  ⟨asked _ _ _, asked _ _ _, by decide +kernel⟩

/-- Zone 7 into each mode, and one past each operand; a schedule that is not engaged and one that is. -/
theorem witness_SetZoneMode : Asked (ask .reset 0x6C [7, 1]) 0x6C (front 0x6C [7, 1]) [] ∧ 7 < (8 : Byte).toNat ∧
    2 < (3 : Byte).toNat ∧ (7 : Byte).toNat = (7 : Fin 8).val ∧ (0 : Byte).toNat = ZoneMode.off.code ∧
    (1 : Byte).toNat = ZoneMode.auto.code ∧ (2 : Byte).toNat = ZoneMode.manual.code ∧
    (State.reset.zone 7).mode = .off ∧ State.reset.zones.queue.head?.map (·.zone) = some 0 ∧
    (exchanging .sending).zones.exchange = some (exchangeOf .sending) ∧ State.reset.sequencer.engaged = false ∧
    (scheduled dryStep 0 .running).sequencer.engaged = true ∧
    (scheduled dryStep 0 .running).sequencer.currentStep = some dryStep ∧
    (scheduled dryStep 0 .running).sequencer.working = some 4500 := ⟨asked _ _ _, by decide +kernel⟩

/-- An exchange in flight of the zone asked for and a frame of it pending; the frame of zone 0 due right after power-up. -/
theorem witness_ReadZone : Asked (ask (exchanging .waiting) 0x6D [2]) 0x6D (front 0x6D [2]) [] ∧ 7 < (8 : Byte).toNat ∧
    (2 : Byte).toNat = (2 : Fin 8).val ∧ (exchanging .waiting).zones.exchange = some (exchangeOf .waiting) ∧
    (exchangeOf .waiting).entry.zone = 2 ∧ (∃ q ∈ State.reset.zones.queue, q.zone = 2) ∧
    (openExchange State.reset).zones.exchange.map (·.entry.zone) = some 0 ∧
    (∀ q ∈ (openExchange State.reset).zones.queue, q.zone ≠ 0) ∧
    { zoneReset with manual := some record0 }.manual = some record0 := ⟨asked _ _ _, by decide +kernel⟩

/-- A window frame for one zone and for all, at the ends of the range and past them, for a zone in each mode. -/
theorem witness_ZoneSet :
    let p : List Byte := [0, 1, 5, 5, 0xDC, 0xFE, 0x70]
    let f : KilnFrame := { front 0x31 p with cls := .window (.one 7), address := 0x87 }
    AtFront ({ State.reset with handler := { handlerReset with intake := [f] } }) f [] ∧ f.cls = .window (.one 7) ∧
    { f with cls := .window .all }.cls = .window .all ∧ f.kind = 0x31 ∧ p.length = 7 ∧ (byteAt p 2).toNat ≤ 5 ∧
    (byteAt p 1).getLsbD 0 = true ∧ (byteAt p 3 ++ byteAt p 4).toInt = 1500 ∧ (byteAt p 5 ++ byteAt p 6).toInt = -400 ∧
    ¬ (6 : Byte).toNat ≤ 5 ∧ ¬ ((5 : Byte) ++ (0xDD : Byte)).toInt ≤ 1500 ∧ (State.reset.zone 7).mode = .off ∧
    ((State.reset.setZone 7 { zoneReset with mode := .auto }).zone 7).mode = .auto ∧
    ((State.reset.setZone 7 { zoneReset with mode := .manual }).zone 7).mode = .manual ∧ (0x32 : Byte) ≠ 0x31 ∧
    (∀ z : Fin 8, (State.reset.zone z).mode ≠ .manual) ∧
    ((State.reset.setZone 7 { zoneReset with mode := .manual }).zones.queue.map (·.zone)).Nodup ∧
    (exchanging .waiting).zones.exchange = some (exchangeOf .waiting) :=
  ⟨⟨rfl, rfl⟩, by decide +kernel⟩

/-! ### Witnesses: faults, notices, the intake queue and what every step keeps -/

def faultRecord : FaultRecord :=
  { source := .zone 2, reason := .zoneNoAnswer, firstSeen := 0, lastSeen := 0, repeats := 1, detail := some 3 }

/-- A set with one record, one with none, and one without a free record, the flag clear and set. -/
theorem witness_FaultRaised :
    let one : FaultSet := { records := (Vector.replicate 16 none).set 0 (some faultRecord), overflow := false }
    let full : FaultSet := { records := Vector.replicate 16 (some faultRecord), overflow := false }
    FaultsSound one ∧ one.records[(0 : Fin 16)] = some faultRecord ∧ one.records[(1 : Fin 16)] = none ∧
    (∀ j : Fin 16, j < 1 → one.records[j] ≠ none) ∧ (∀ i : Fin 16, full.records[i] ≠ none) ∧
    (∀ i : Fin 16, full.records[i].map (·.source) ≠ some (.zone 3)) ∧ full.overflow = false ∧
    { full with overflow := true }.overflow = true := by
  refine ⟨fun i j a b hi hj _ _ => ?_, by decide +kernel⟩
  have only (k : Fin 16) (c : FaultRecord)
      (h : ((Vector.replicate 16 none).set 0 (some faultRecord) : Vector (Option FaultRecord) 16)[k] = some c) : k = 0 := by
    by_contra h'
    cases ((Vector.getElem_set_ne (by decide) k.isLt fun e => h' (Fin.ext e.symm)).trans
      (Vector.getElem_replicate k.isLt)).symm.trans h
  exact (only i a hi).trans (only j b hj).symm

theorem witness_FaultRequests : Asked (ask .reset 0x6E [15]) 0x6E (front 0x6E [15]) [] ∧
    Asked (ask .reset 0x6F [255]) 0x6F (front 0x6F [255]) [] ∧ 15 < (16 : Byte).toNat ∧ (254 : Byte).toNat < 255 ∧
    (15 : Byte).toNat = (15 : Fin 16).val := ⟨asked _ _ _, asked _ _ _, by decide⟩

/-- 31 and 32 notices; counts 0, 1, 4 and 5. -/
theorem witness_Notices :
    let n : Notice := { kind := .faultRecorded, subject := 0, minute := 0, value1 := some 1, value2 := some 2 }
    (List.replicate 31 n).length < 32 ∧ 32 ≤ (List.replicate 32 n).length ∧
    Asked (ask .reset 0x57 [4]) 0x57 (front 0x57 [4]) [] ∧ (0 : Byte).toNat = 0 ∧ 4 < (5 : Byte).toNat ∧
    1 ≤ (1 : Byte).toNat ∧ (4 : Byte).toNat ≤ 4 := ⟨by simp, by simp, asked _ _ _, by decide⟩

/-- Each class of address of a part with ADDR 0, a group frame admitted, and a slot 1 that matches and one that does
not. -/
theorem witness_Admission : State.reset.straps.addr = 0 ∧ (0x10 : Byte).toNat = 16 + State.reset.straps.addr.toNat ∧
    (0x87 : Byte).toNat = 128 + 16 * State.reset.straps.addr.toNat + (7 : Fin 8).val ∧
    (0x88 : Byte).toNat = 128 + 16 * State.reset.straps.addr.toNat + 8 ∧ (0xFF : Byte).toNat = 255 ∧
    128 + 16 * State.reset.straps.addr.toNat + 8 < (0x89 : Byte).toNat ∧ State.reset.handler.slot1.valid = false ∧
    (∀ k < 8, (0 : Byte).getLsbD k = true → (0x89 : Byte).getLsbD k = (0 : Byte).getLsbD k) := by decide +kernel

/-- A step from the power-up state with MINUTE_TICK in front, for the statements on what every step keeps. -/
theorem witness_step : ∃ t, step { State.reset with pending := [.minuteTick] } = .next t := ⟨_, rfl⟩

theorem witness_IntakeKept : IntakeSound State.reset.handler := ⟨by decide, by decide, by decide⟩

theorem witness_RecordsKept : NoticesSound State.reset.notices ∧ FaultsSound State.reset.faults :=
  ⟨Nat.zero_le 32, fun i _ _ _ h => nomatch (Vector.getElem_replicate i.isLt).symm.trans h⟩

/-- A RUNNING schedule one minute short of its step's end. -/
theorem witness_ScheduleKept : CausesSound (scheduled dryStep 599 .running).sequencer ∧
    ScheduleSound (scheduled dryStep 599 .running).sequencer := by
  refine ⟨by unfold CausesSound; decide +kernel, fun i r h => ?_, by decide, ?_, by decide, (fun h => by cases h),
    fun _ => ⟨0, dryStep, by decide +kernel⟩⟩
  · have all : ∀ x ∈ (scheduled dryStep 599 .running).sequencer.steps.toList, ∀ r, x = some r → stepRecordOk r = true := by
      intro x hx
      have := (by decide +kernel : (scheduled dryStep 599 .running).sequencer.steps.toList.all
        fun x => x.all stepRecordOk)
      intro r hr
      subst hr
      exact List.all_eq_true.1 this _ hx
    rcases Nat.lt_or_ge i (scheduled dryStep 599 .running).sequencer.steps.toList.length with hi | hi
    · exact all _ (List.getElem_mem hi) r (by
        simpa [Sequencer.stepAt, List.getD_eq_getElem?_getD, List.getElem?_eq_getElem hi] using h)
    · simp [Sequencer.stepAt, List.getD_eq_getElem?_getD, List.getElem?_eq_none hi] at h
  · decide +kernel

/-- The node table of the one mapped probe of `withProbe`: node 3, channel 0. -/
theorem witness_NodesSound :
    NodesSound ((Vector.replicate 16 nodeReset).set 3 { nodeReset with state := .online, mask := 1 })
      (withProbe .active).probes := by
  have maps (i : Fin 192) (a : Mapping) : (withProbe .active).probes[i].mapping = some a ↔
      i = 191 ∧ { node := 3, channel := 0, zone := 2, profile := 2 } = a := by
    by_cases h : i = 191
    · subst h
      rw [show (withProbe .active).probes[(191 : Fin 192)] = entryIn .active by decide +kernel]
      simp [entryIn]
    · rw [show (withProbe .active).probes[i] = probeReset from
        (Vector.getElem_set_ne (by decide) i.isLt fun e => h (Fin.ext e.symm)).trans (Vector.getElem_replicate i.isLt)]
      simp [h, probeReset]
  have one : ∀ n : Fin 16, (((Vector.replicate 16 nodeReset).set 3
      { nodeReset with state := .online, mask := 1 })[n].state = .vacant ↔ (3 : Fin 16) ≠ n) ∧
      ∀ c : Fin 16, ((Vector.replicate 16 nodeReset).set 3
        { nodeReset with state := .online, mask := 1 })[n].mask.getLsbD c.val = true ↔ (3 : Fin 16) = n ∧ (0 : Fin 16) = c := by
    decide +kernel
  intro n
  simp only [maps]
  refine ⟨(one n).1.trans ⟨?_, fun h => h 191 _ ⟨rfl, rfl⟩⟩, fun c => ((one n).2 c).trans
    ⟨fun h => ⟨191, _, ⟨rfl, rfl⟩, h⟩, ?_⟩⟩
  · rintro h i _ ⟨_, rfl⟩; exact h
  · rintro ⟨i, _, ⟨_, rfl⟩, h⟩; exact h

/-- The power-up queue and curves; the parameters, the probe map and the node table are those of
`witness_EstimateFigures`, `witness_WetRanking` and `witness_NodesSound`. -/
theorem witness_TablesKept : ParamsSound State.reset.params ∧ CurvesSound State.reset.curves ∧
    QueueSound State.reset.zones ∧ ProbesSound (withProbe .active).probes ∧
    NodesSound ((Vector.replicate 16 nodeReset).set 3 { nodeReset with state := .online, mask := 1 })
      (withProbe .active).probes ∧ FiguresSound (withProbe .active).probes :=
  ⟨fun i => witness_EstimateFigures.1 i,
    (fun k h => by
      have unloaded : State.reset.curves[k] = profileReset := Vector.getElem_replicate k.isLt
      rw [unloaded] at h; cases h),
    by unfold QueueSound; decide +kernel, witness_WetRanking.1, witness_NodesSound, witness_WetRanking.2.1⟩

end Sys2Proof.Tests
end

section
/-! SUPPORT. The commands of the line units and the operations they come to (R11 to R15, R18), one equation for each case. -/

namespace Sys2Proof.LineFraming

open Sys2Proof.Machine
open Sys2Proof.Safety
open Sys2Proof.Laws

/-! ### What each command runs -/

theorem exec_transmitEnd (l : PairLine) (s : State) : exec (.transmitEnd l) s = .next (endTransmit l s) := rfl

theorem exec_replyHandover (s : State) : exec .replyHandover s = .next (handOverReply s) := rfl

theorem exec_replyTransmitEnd (s : State) : exec .replyTransmitEnd s = .next { s with kiln := s.kiln.replySent } := rfl

theorem exec_spacingSpellStart {l : PairLine} {s : State} (h : (s.unit l).pairSpacing = false) :
    exec (.spacingSpellStart l) s = .next (s.setUnit l ((s.unit l).spellStarted s.stuckLimit)) := by
  show execSpacingSpellStart l s = _
  simp [execSpacingSpellStart, h]

/-! ### The stuck monitor (R18) -/

theorem spellStarted_eq (u : PairUnit) (limit : Nat) : u.spellStarted limit =
    { u with pairSpacing := true, idle := .stopped
             spell := if u.slot.isSending ∨ u.lineState.isFault then u.spell else .running limit } := by
  cases hs : u.slot.isSending <;> cases hf : u.lineState.isFault <;>
    simp [PairUnit.spellStarted, PairUnit.timesSpells, hs, hf]

/-! ### The gap limit (R11) -/

theorem gapExpired_hunt {l : Line} {s : State} (h : s.assemblerOf l = .hunt) : gapExpired l s = s := by
  simp [gapExpired, h]

theorem gapExpired_body {l : Line} {s : State} {r : FrameRecord} (h : s.assemblerOf l = .body r) :
    gapExpired l s = reportDiscard l ((s.setAssembler l .hunt).setDiscard l .truncated) := by
  simp [gapExpired, h, discardFrame]

/-! ### A discard reported to the line's owner (R12) -/

theorem failWaiting_sending {s : State} (o : ScanOutcome) (h : ∀ st, s.poller.staging = some st → st.phase = .sending) :
    failWaiting o s = s := by
  unfold failWaiting
  split
  · next st hst => simp [h st hst]
  · rfl

theorem failWaiting_waiting {s : State} {st : Staging} (o : ScanOutcome) (h : s.poller.staging = some st)
    (hp : st.phase = .waiting) : failWaiting o s = attemptFails st o s := by simp [failWaiting, h, hp]

theorem noAnswer_sending {s : State} (h : ∀ x, s.zones.exchange = some x → x.phase = .sending) : noAnswer s = s := by
  unfold noAnswer
  split
  · next x hx => simp [h x hx]
  · rfl

/-! ### Transmission (R13, R14) -/

theorem startTransmit_waiting {l : PairLine} {s : State} {f : Frame} {n : Nat} (hs : (s.unit l).slot = .waiting f)
    (hi : (s.unit l).idle = .running n) (hf : (s.unit l).lineState.isFault = false) :
    startTransmit l s = gapExpired (lineOf l) (s.setUnit l ((s.unit l).startSending f)) := by
  simp [startTransmit, hs, hi, hf]

theorem endTransmit_sending {l : PairLine} {s : State} {f : Frame} {w : List WireChar}
    (h : (s.unit l).slot = .sending f w) :
    endTransmit l s = reportSent l (s.setUnit l ((s.unit l).sent s.stuckLimit)) := by
  simp [endTransmit, h]

theorem fieldSent_staged {s : State} {st : Staging} (h : s.poller.staging = some st) :
    fieldSent s = s.setStaging (some { st with phase := .waiting, timeout := .running (s.param .scanAnswerTimeout) }) := by
  simp [fieldSent, h]

theorem driveSent_exchanging {s : State} {x : DriveExchange} (h : s.zones.exchange = some x) :
    driveSent s = s.setExchange (some { x with phase := .waiting, timeout := .running (s.param .driveAnswerTimeout) }) := by
  simp [driveSent, h]

/-- R138: a hand-over changes nothing of the Drive unit but its slot. -/
theorem openExchange_drive (s : State) : ∃ slot, (openExchange s).drive = { s.drive with slot := slot } := by
  obtain ⟨_, slot, _, h⟩ := zonesOnly_openExchange s
  exact ⟨slot, by rw [h]⟩

/-! ### The Kiln unit's replies (R15, R160) -/

theorem handOverReply_free {s : State} {r : Reply} (hr : s.handler.replyPlace = some r) (hw : s.kiln.waiting = none) :
    handOverReply s =
      { s with kiln := s.kiln.takeReply r.frame, handler := { s.handler with replyPlace := none } } := by
  simp [handOverReply, hr, hw]

end Sys2Proof.LineFraming
end

section
/-! CERTIFICATE. The statements on the line units' timers, discards, transmissions and replies. -/

namespace Sys2Proof.LineFraming

open Sys2Proof.Machine
open Sys2Proof.Safety
open Sys2Proof.Laws

/-- Settles O8. -/
theorem spellsAndMarking : Obligations.SpellsAndMarking := by
  refine ⟨fun l s h => ?_, fun l s => rfl, fun s => rfl⟩
  rw [exec_spacingSpellStart h, spellStarted_eq]
  rfl

/-- Settles O12, by the Kiln unit's sending and waiting places. -/
theorem replyPath : Obligations.ReplyPath := by
  refine ⟨fun r s hr hw hs => ?_, fun r x s hr hw hs => ?_, fun x s hs hw => ?_, fun x g s hs hw => ?_⟩
  · rw [exec_replyHandover, handOverReply_free hr hw]
    simp [KilnUnit.takeReply, hs, sendingOf]
  · rw [exec_replyHandover, handOverReply_free hr hw]
    simp [KilnUnit.takeReply, hs]
  · rw [exec_replyTransmitEnd]
    simp [KilnUnit.replySent, hs, hw]
  · rw [exec_replyTransmitEnd]
    simp [KilnUnit.replySent, hs, hw, sendingOf]

/-- Settles O9: what a discard reported does for each owner, and the gap limit in HUNT and in BODY on each line. -/
theorem gapLimit : Obligations.GapLimit := by
  refine ⟨fun l s => ⟨?_, ?_, ?_, ?_, ?_⟩, fun s => ⟨?_, ?_, ?_, ?_, ?_, ?_⟩⟩
  · rintro rfl; rfl
  · rintro rfl h; exact failWaiting_sending _ h
  · rintro rfl st h hp; exact failWaiting_waiting _ h hp
  · rintro rfl h; exact noAnswer_sending h
  · rintro rfl x _ _; rfl
  · exact fun h => congrArg _ (gapExpired_hunt (l := .field) h)
  · exact fun h => congrArg _ (gapExpired_hunt (l := .drive) h)
  · exact fun h => congrArg _ (gapExpired_hunt (l := .kiln) h)
  · exact fun r h => congrArg _ (gapExpired_body (l := .field) h)
  · exact fun r h => congrArg _ (gapExpired_body (l := .drive) h)
  · exact fun r h => congrArg _ (gapExpired_body (l := .kiln) h)

/-- TRANSMIT_START with the frame waiting: whatever the assembler holds is left to the gap limit's own rule. -/
theorem exec_transmitStart {l : PairLine} {s : State} {f : Frame} {n : Nat}
    (hs : ((beforeTransmit l s).unit l).slot = .waiting f) (hi : ((beforeTransmit l s).unit l).idle = .running n)
    (hf : ((beforeTransmit l s).unit l).lineState.isFault = false) :
    exec (.transmitStart l) s = .next (gapExpired (lineOf l)
      ((beforeTransmit l s).setUnit l (((beforeTransmit l s).unit l).startSending f))) :=
  congrArg _ (startTransmit_waiting hs hi hf)

/-- Settles O11. On the Drive Line the premises speak of the unit before the hand-over, which changes its slot alone. -/
theorem transmitStartAndEnd : Obligations.TransmitStartAndEnd := by
  refine ⟨⟨fun f n s hs hi hf ha => ?_, fun f n r s hs hi hf ha => ?_, fun f n s hs hi hf ha => ?_,
    fun f n r s hs hi hf ha => ?_⟩, fun f w st s hs hst => ?_, fun f w x s hs hx => ?_⟩
  · rw [exec_transmitStart (l := .field) hs hi hf, gapExpired_hunt]
    · rfl
    · exact ha
  · exact exec_transmitStart (l := .field) hs hi hf
  · obtain ⟨slot, hd⟩ := openExchange_drive s
    have hi' : (openExchange s).drive.idle = .running n := by rw [hd]; exact hi
    have hf' : (openExchange s).drive.lineState.isFault = false := by rw [hd]; exact hf
    have ha' : (openExchange s).drive.assembler = .hunt := by rw [hd]; exact ha
    rw [exec_transmitStart (l := .drive) hs hi' hf', gapExpired_hunt]
    · rfl
    · exact ha'
  · obtain ⟨slot, hd⟩ := openExchange_drive s
    have hi' : (openExchange s).drive.idle = .running n := by rw [hd]; exact hi
    have hf' : (openExchange s).drive.lineState.isFault = false := by rw [hd]; exact hf
    exact exec_transmitStart (l := .drive) hs hi' hf'
  · rw [exec_transmitEnd, endTransmit_sending (l := .field) hs]
    exact congrArg _ (fieldSent_staged hst)
  · rw [exec_transmitEnd, endTransmit_sending (l := .drive) hs]
    exact congrArg _ (driveSent_exchanging hx)

end Sys2Proof.LineFraming
end

section
/-! SUPPORT. What the receiver makes of sampled positions (R2, R3), and what the assembler makes of a character at each
position of a frame (R8 to R10). -/

namespace Sys2Proof.LineFraming

open Sys2Proof.Machine
open Sys2Proof.Safety
open Sys2Proof.Laws

/-! ### The receiver (R2, R3) -/

theorem receive_marking {w : Samples} (h : positionValue w 0 = true) : receive w = none := by simp [receive, h]

theorem allSpacing_iff (w : Samples) : allSpacing w = true ↔ ∀ k < 12, positionValue w k = false := by
  simp [allSpacing]

theorem receive_spacing {w : Samples} (h : ∀ k < 12, positionValue w k = false) : receive w = some breakChar := by
  simp [receive, h 0 (by decide), (allSpacing_iff w).2 h]

theorem receive_character {w : Samples} (h0 : positionValue w 0 = false) (h : ∃ k < 12, positionValue w k = true) :
    receive w = some
      { data := byteOfBits fun k => positionValue w (k + 1), mark := positionValue w 9
        noise := (List.range 12).any fun k => !positionAgrees w k, parity := onesReceived w % 2 == 0
        framing := !positionValue w 11, brk := false } := by
  have hb : ¬ allSpacing w = true := by
    rw [allSpacing_iff]
    obtain ⟨k, hk, hv⟩ := h
    exact fun all => by simp [all k hk] at hv
  simp [receive, h0, hb]

/-- R2, NOISE: the three samples of some position differ. -/
theorem noise_iff (w : Samples) : ((List.range 12).any fun k => !positionAgrees w k) = true ↔
    ∃ k < 12, w.getLsbD (3 * k) ≠ w.getLsbD (3 * k + 1) ∨ w.getLsbD (3 * k + 1) ≠ w.getLsbD (3 * k + 2) := by
  simp [positionAgrees]

/-- R1: the twelve bit times of a character, first on the wire first. -/
theorem transmitChar_bits : ∀ (d : Byte) (m : Bool), (transmitChar d m).getLsbD 0 = false ∧
    (∀ k < 8, (transmitChar d m).getLsbD (k + 1) = d.getLsbD k) ∧ (transmitChar d m).getLsbD 9 = m ∧
    (transmitChar d m).getLsbD 11 = true ∧
    ((List.range 10).countP fun k => (transmitChar d m).getLsbD (k + 1)) % 2 = 1 := by
  decide +kernel

/-! ### The assembler in HUNT (R8) -/

theorem assemble_hunt (c : RxChar) : assemble .hunt c =
    (if c.mark = true ∧ c.parity = false ∧ c.framing = false ∧ c.brk = false then openFrame c else .hunt, .quiet) := by
  cases hm : c.mark <;> cases hp : c.parity <;> cases hf : c.framing <;> cases hb : c.brk <;>
    simp [assemble, hm, hp, hf, hb]

/-! ### The assembler in BODY (R9, R10) -/

/-- An ordinary character: no error tag, no BREAK and no mark. -/
structure Ordinary (c : RxChar) : Prop where
  parity  : c.parity = false
  framing : c.framing = false
  brk     : c.brk = false
  mark    : c.mark = false

theorem assemble_error {c : RxChar} (r : FrameRecord) (h : c.parity = true ∨ c.framing = true ∨ c.brk = true) :
    assemble (.body r) c = (.hunt, .discarded .charError) := by
  rcases h with h | h | h <;> simp [assemble, h]

theorem assemble_address {c : RxChar} (r : FrameRecord) (hp : c.parity = false) (hf : c.framing = false)
    (hb : c.brk = false) (hm : c.mark = true) : assemble (.body r) c = (openFrame c, .discarded .truncated) := by
  simp [assemble, hp, hf, hb, hm]

theorem assemble_ordinary {c : RxChar} (r : FrameRecord) (h : Ordinary c) :
    assemble (.body r) c = takeCharacter r c := by
  simp [assemble, h.parity, h.framing, h.brk, h.mark]

/-- The record with an ordinary character taken into the check, the noise and the gap timer. -/
def absorbed (r : FrameRecord) (c : RxChar) : FrameRecord :=
  { r with noisy := r.noisy || c.noise, gap := .running 48, crc := crcByte r.crc c.data }

theorem takeCharacter_kind {r : FrameRecord} (c : RxChar) (hk : r.kind = none) :
    takeCharacter r c = (.body { absorbed r c with kind := some c.data }, .quiet) := by
  unfold takeCharacter; rw [hk]; rfl

theorem takeCharacter_length {r : FrameRecord} {c : RxChar} {k : Byte} (hk : r.kind = some k) (hl : r.length = none)
    (hc : c.data.toNat ≤ 80) :
    takeCharacter r c = (.body { absorbed r c with length := some c.data.toNat }, .quiet) := by
  unfold takeCharacter; rw [hk, hl]; exact if_neg (Nat.not_lt.2 hc)

theorem takeCharacter_badLength {r : FrameRecord} {c : RxChar} {k : Byte} (hk : r.kind = some k) (hl : r.length = none)
    (hc : 80 < c.data.toNat) : takeCharacter r c = (.hunt, .discarded .badLength) := by
  unfold takeCharacter; rw [hk, hl]; exact if_pos hc

theorem takeCharacter_payload {r : FrameRecord} {k : Byte} {n : Nat} (c : RxChar) (hk : r.kind = some k)
    (hl : r.length = some n) (hp : r.payload.length < n) :
    takeCharacter r c = (.body { absorbed r c with payload := r.payload ++ [c.data] }, .quiet) := by
  unfold takeCharacter; rw [hk, hl]; exact if_pos hp

theorem takeCharacter_check {r : FrameRecord} {k : Byte} {n : Nat} (c : RxChar) (hk : r.kind = some k)
    (hl : r.length = some n) (hp : r.payload.length = n) (hc : r.check = []) :
    takeCharacter r c = (.body { absorbed r c with check := [c.data], crc := r.crc }, .quiet) := by
  simp [takeCharacter, hk, hl, hp, hc, absorbed, FrameRecord.touched, Config.gapLimit, Config.charBits]

/-- R10: the second check byte completes the frame: delivered when the check holds. -/
theorem takeCharacter_delivered {r : FrameRecord} {k a : Byte} {n : Nat} (c : RxChar) (hk : r.kind = some k)
    (hl : r.length = some n) (hp : r.payload.length = n) (hc : r.check = [a])
    (hcrc : a = highByte r.crc ∧ c.data = lowByte r.crc) :
    takeCharacter r c =
      (.hunt, .delivered { address := r.address, kind := k, payload := r.payload } (r.noisy || c.noise)) := by
  simp [takeCharacter, hk, hl, hp, hc, completeFrame, FrameRecord.touched, ← hcrc.1, ← hcrc.2]

theorem takeCharacter_badCheck {r : FrameRecord} {k a : Byte} {n : Nat} (c : RxChar) (hk : r.kind = some k)
    (hl : r.length = some n) (hp : r.payload.length = n) (hc : r.check = [a])
    (hcrc : ¬ (a = highByte r.crc ∧ c.data = lowByte r.crc)) :
    takeCharacter r c = (.hunt, .discarded .badCheck) := by
  simp [takeCharacter, hk, hl, hp, hc, completeFrame, FrameRecord.touched, hcrc]

theorem append_halves (w : Word16) : highByte w ++ lowByte w = w := by
  obtain ⟨a, b, h, joined⟩ := w2_holds w
  obtain ⟨rfl, rfl, _⟩ : highByte w = a ∧ lowByte w = b ∧ True := by simpa [w2] using h
  exact (joined [highByte w, lowByte w] 0 rfl rfl).2

theorem highByte_append (a b : Byte) : highByte (a ++ b) = a := BitVec.extractLsb'_append_eq_left

theorem lowByte_append (a b : Byte) : lowByte (a ++ b) = b := BitVec.extractLsb'_append_eq_right

theorem eq_append_iff (w : Word16) (a b : Byte) : w = a ++ b ↔ a = highByte w ∧ b = lowByte w := by
  constructor
  · rintro rfl
    exact ⟨(highByte_append a b).symm, (lowByte_append a b).symm⟩
  · rintro ⟨rfl, rfl⟩
    exact (append_halves w).symm

end Sys2Proof.LineFraming
end

section
/-! CERTIFICATE. Characters sent and received, and a frame sent and received as it was sent. -/

namespace Sys2Proof.LineFraming

open Sys2Proof.Machine
open Sys2Proof.Safety
open Sys2Proof.Laws

/-- Settles O4: each of the three outcomes of the receiver. -/
theorem charactersSentAndReceived : Obligations.CharactersSentAndReceived := by
  refine ⟨⟨transmitChar_bits, by decide +kernel⟩, fun w => ⟨receive_marking, receive_spacing, fun h0 h => ?_⟩⟩
  refine ⟨_, receive_character h0 h, fun k hk => byteOfBits_bit _ k hk, rfl, rfl, rfl, ?_, noise_iff w⟩
  rw [Nat.dvd_iff_mod_eq_zero]
  exact beq_iff_eq

/-! ### A frame's run through the assembler (R6 to R10) -/

/-- A character without a tag, as a receiver delivers one that arrives as it was sent. -/
def plain (mark : Bool) (b : Byte) : RxChar :=
  { data := b, mark := mark, noise := false, parity := false, framing := false, brk := false }

theorem ordinary_plain (b : Byte) : Ordinary (plain false b) := ⟨rfl, rfl, rfl, rfl⟩

theorem receivedClean_wire (f : Frame) : receivedClean f.wire = plain true f.address :: f.body.map (plain false) := by
  have clean : ∀ l : List Byte,
      (l.map fun b => transmitChar b false).filterMap (fun c => receive (cleanSamples c)) = l.map (plain false) := by
    intro l
    induction l with
    | nil => rfl
    | cons b l ih => rw [List.map_cons, List.filterMap_cons, receive_clean, ih]; rfl
  rw [Frame.wire, receivedClean, List.filterMap_cons, receive_clean, clean]
  rfl

/-- The record of a frame of `n` payload bytes, clean so far, of which these payload bytes have come in. -/
def partway (address kind : Byte) (n : Nat) (got : List Byte) : FrameRecord :=
  { address := address, kind := some kind, length := some n, payload := got, check := []
    crc := crcOf (address :: kind :: BitVec.ofNat 8 n :: got), noisy := false, gap := .running 48 }

theorem assemble_partway (a k b : Byte) (n : Nat) (got : List Byte) (h : got.length < n) :
    assemble (.body (partway a k n got)) (plain false b) = (.body (partway a k n (got ++ [b])), .quiet) := by
  rw [assemble_ordinary _ (ordinary_plain b), takeCharacter_payload _ rfl rfl h]
  simp [absorbed, partway, plain, crcOf, List.foldl_append]

/-- The payload characters are taken in quietly, one after another. -/
theorem runAssembler_payload (a k : Byte) (n : Nat) (rest got : List Byte) (h : got.length + rest.length = n) :
    runAssembler (.body (partway a k n got)) (rest.map (plain false)) =
      (.body (partway a k n (got ++ rest)), List.replicate rest.length .quiet) := by
  induction rest generalizing got with
  | nil => simp [runAssembler]
  | cons b rest ih =>
    rw [List.length_cons] at h
    rw [List.map_cons, runAssembler, assemble_partway a k b n got (by omega), ih (got ++ [b]) (by simp; omega)]
    simp [List.replicate_succ]

/-- The record an address opens. -/
def begun (address : Byte) : FrameRecord :=
  { address := address, kind := none, length := none, payload := [], check := [], crc := crcOf [address]
    noisy := false, gap := .running 48 }

theorem assemble_begun (a : Byte) : assemble .hunt (plain true a) = (.body (begun a), .quiet) := rfl

theorem assemble_kind (a k : Byte) : assemble (.body (begun a)) (plain false k) =
    (.body { begun a with kind := some k, crc := crcOf [a, k] }, .quiet) := rfl

theorem assemble_length (a k : Byte) (n : Nat) (h : n ≤ 80) :
    assemble (.body { begun a with kind := some k, crc := crcOf [a, k] }) (plain false (BitVec.ofNat 8 n)) =
      (.body (partway a k n []), .quiet) := by
  have hn : (plain false (BitVec.ofNat 8 n)).data.toNat = n := by
    show (BitVec.ofNat 8 n).toNat = n
    rw [BitVec.toNat_ofNat]
    omega
  rw [assemble_ordinary _ (ordinary_plain _), takeCharacter_length rfl rfl (by omega), hn]
  rfl

theorem assemble_firstCheck (f : Frame) :
    assemble (.body (partway f.address f.kind f.payload.length f.payload)) (plain false (highByte (crcOf f.covered))) =
      (.body { partway f.address f.kind f.payload.length f.payload with check := [highByte (crcOf f.covered)] },
        .quiet) := by
  rw [assemble_ordinary _ (ordinary_plain _), takeCharacter_check _ rfl rfl rfl rfl]
  rfl

/-- The second check byte completes the frame, which is delivered. -/
theorem assemble_lastCheck (f : Frame) :
    assemble (.body { partway f.address f.kind f.payload.length f.payload with check := [highByte (crcOf f.covered)] })
      (plain false (lowByte (crcOf f.covered))) = (.hunt, .delivered f false) := by
  rw [assemble_ordinary _ (ordinary_plain _), takeCharacter_delivered _ rfl rfl rfl rfl ⟨rfl, rfl⟩]
  rfl

theorem runAssembler_cons {a b : Assembler} {c : RxChar} {e : AssemblerEvent} (h : assemble a c = (b, e))
    (cs : List RxChar) : runAssembler a (c :: cs) = ((runAssembler b cs).1, e :: (runAssembler b cs).2) := by
  rw [runAssembler, h]

/-- Settles O5: the run of the head, of the payload and of the check bytes, one after another. -/
theorem frameRoundTrip : Obligations.FrameRoundTrip := by
  intro f h
  have wire : receivedClean f.wire = plain true f.address :: plain false f.kind ::
      plain false (BitVec.ofNat 8 f.payload.length) :: (f.payload.map (plain false) ++
        [plain false (highByte (crcOf f.covered)), plain false (lowByte (crcOf f.covered))]) := by
    simp [receivedClean_wire, Frame.body]
  have payload := runAssembler_payload f.address f.kind f.payload.length f.payload [] (by simp)
  rw [List.nil_append] at payload
  rw [wire, runAssembler_cons (assemble_begun _), runAssembler_cons (assemble_kind _ _),
    runAssembler_cons (assemble_length _ _ _ h), runAssembler_append, payload,
    runAssembler_cons (assemble_firstCheck f), runAssembler_cons (assemble_lastCheck f)]
  have events : List.replicate (f.payload.length + 4) AssemblerEvent.quiet =
      .quiet :: .quiet :: .quiet :: (List.replicate f.payload.length .quiet ++ [.quiet]) := by
    rw [List.replicate_succ, List.replicate_succ, List.replicate_succ, List.replicate_succ']
  simp [runAssembler, events]

end Sys2Proof.LineFraming
end

section
/-! SUPPORT. A character handed to a line's assembler and what the line is left with (R2 to R4, R8 to R10, R13, R16). -/

namespace Sys2Proof.LineFraming

open Sys2Proof.Machine
open Sys2Proof.Safety
open Sys2Proof.Laws

theorem exec_characterReceived {w : Samples} {c : RxChar} (h : receive w = some c) (l : Line) (s : State) :
    exec (.characterReceived l w) s = .next (receiveCharacter l c s) := by
  show execCharacterReceived l w s = _
  simp [execCharacterReceived, h]

theorem exec_breakCharacter (l : BreakLine) (s : State) : exec (.breakCharacter l) s = .next (receiveBreak l s) := rfl

/-- R14, R17: when a pair unit's receiver takes a character. -/
theorem pairListens_iff (u : PairUnit) : u.listens = true ↔
    u.slot.isSending = false ∧ u.lineState.isFault = false ∧ u.awaitMarking = false := by
  simp [PairUnit.listens, and_assoc]

theorem receiveCharacter_deaf {l : Line} {s : State} (c : RxChar) (h : s.listens l = false) :
    receiveCharacter l c s = s := by simp [receiveCharacter, h]

/-- A line after a character that leaves its assembler so and its last discard reason so, before any owner is told. -/
def judged (l : Line) (c : RxChar) (s : State) (a : Assembler) (d : Option DiscardReason) : State :=
  match d with
  | none => (s.afterChar l c).setAssembler l a
  | some r => ((s.afterChar l c).setAssembler l a).setDiscard l r

theorem breakReport_quiet {c : RxChar} (h : c.brk = false) (l : Line) (s : State) : breakReport l c s = s := by
  simp [breakReport, h]

theorem assemblerOf_afterChar (s : State) (l : Line) (c : RxChar) : (s.afterChar l c).assemblerOf l = s.assemblerOf l := by
  cases l <;> rfl

/-- What an assembler's event does to a line whose assembler it leaves so. -/
def concluded (l : Line) (c : RxChar) (s : State) (a : Assembler) : AssemblerEvent → State
  | .quiet => judged l c s a none
  | .discarded r => reportDiscard l (judged l c s a (some r))
  | .delivered f noisy => deliverFrame l f noisy (judged l c s a none)

theorem receiveCharacter_taken {l : Line} {c : RxChar} {s : State} {a : Assembler} {e : AssemblerEvent}
    (hl : s.listens l = true) (ha : assemble (s.assemblerOf l) c = (a, e)) :
    receiveCharacter l c s = breakReport l c (concluded l c s a e) := by
  rw [receiveCharacter, if_pos hl, feedCharacter, assemblerOf_afterChar, ha]
  cases e <;> rfl

theorem exec_character {l : Line} {w : Samples} {c : RxChar} {s : State} {a : Assembler} {e : AssemblerEvent}
    (hr : receive w = some c) (hb : c.brk = false) (hl : s.listens l = true)
    (ha : assemble (s.assemblerOf l) c = (a, e)) :
    exec (.characterReceived l w) s = .next (concluded l c s a e) := by
  rw [exec_characterReceived hr, receiveCharacter_taken hl ha, breakReport_quiet hb]

end Sys2Proof.LineFraming
end

section
/-! CERTIFICATE. A character judged by the assembler. -/

namespace Sys2Proof.LineFraming

open Sys2Proof.Machine
open Sys2Proof.Safety
open Sys2Proof.Laws

/-- Settles O6: the assembler's outcome at each position of a frame, and what the line is left with. -/
theorem characterJudged : Obligations.CharacterJudged := by
  intro l w c s hr hb listens takes assembler pair left delivered opened
  have hTakes : takes ↔ s.listens l = true := by
    cases l
    · exact (pairListens_iff _).symm
    · exact (pairListens_iff _).symm
    · simp [takes, State.listens]
  have hAssembler : s.assemblerOf l = assembler := by cases l <;> rfl
  have hLeft : ∀ a d, judged l c s a d = left a d := by
    intro a d
    cases l <;> cases d <;>
      simp [left, pair, judged, State.afterChar, State.setAssembler, State.setDiscard, PairUnit.afterChar, hb,
        PairUnit.idleRestarted, Config.idleLimit, Config.charBits]
  have hDelivered : ∀ f noisy, deliverFrame l f noisy (judged l c s .hunt none) = delivered f noisy := by
    intro f noisy
    rw [hLeft]
    cases l <;> rfl
  have taken : takes → ∀ {a e}, assemble assembler c = (a, e) →
      exec (.characterReceived l w) s = .next (concluded l c s a e) := by
    intro ht a e ha
    exact exec_character hr hb (hTakes.1 ht) (hAssembler ▸ ha)
  simp only [← hLeft, ← hDelivered]
  refine ⟨fun ht => ?_, fun ht ha => ?_, fun r ht ha => ⟨fun he => ?_, fun hp hf hm => ?_, fun hp hf hm => ?_⟩⟩
  · rw [hTakes, Bool.not_eq_true] at ht
    rw [exec_characterReceived hr, receiveCharacter_deaf c ht]
  · refine taken (e := .quiet) ht ?_
    rw [ha, assemble_hunt]
    simp [hb, opened, openFrame, crcOf, Config.gapLimit, Config.charBits]
  · exact taken ht (ha ▸ assemble_error r (he.imp id .inl))
  · exact taken ht (ha ▸ assemble_address r hp hf hb hm)
  · have hc : assemble assembler c = takeCharacter r c := ha ▸ assemble_ordinary r ⟨hp, hf, hb, hm⟩
    refine ⟨fun hk => ?_, fun k hk hn hd => ?_, fun k hk hn hd => ?_, fun k n hk hn hd => ?_, fun k n hk hn hd h0 => ?_,
      fun k n a hk hn hd h1 hcrc => ?_, fun k n a hk hn hd h1 hcrc => ?_⟩
    · exact taken ht (hc.trans (takeCharacter_kind c hk))
    · exact taken ht (hc.trans (takeCharacter_length hk hn hd))
    · exact taken ht (hc.trans (takeCharacter_badLength hk hn hd))
    · exact taken ht (hc.trans (takeCharacter_payload c hk hn hd))
    · exact taken ht (hc.trans (takeCharacter_check c hk hn hd h0))
    · have ok := (eq_append_iff _ _ _).1 hcrc
      exact taken ht (hc.trans (takeCharacter_delivered c hk hn hd h1 ok))
    · have bad := mt (eq_append_iff _ _ _).2 hcrc
      exact taken ht (hc.trans (takeCharacter_badCheck c hk hn hd h1 bad))

end Sys2Proof.LineFraming
end

section
/-! SUPPORT. A BREAK character on each line (R3, R16, R163), and a frame delivered on the Kiln Line (R156 to R159). -/

namespace Sys2Proof.LineFraming

open Sys2Proof.Machine
open Sys2Proof.Safety
open Sys2Proof.Laws

/-! ### A BREAK character -/

theorem requestOfKind_collect : ∀ k : Byte, (requestOfKind k == some .collectNotices) = (k == 0x57) := by decide +kernel

/-- R163: LOST after a break, by the reply the break discards. -/
def lostAfterBreak (s : State) : Bool :=
  s.notices.lost || s.handler.replyPlace.any fun r =>
    r.frame.address == stationAddress s.straps.addr && r.requestKind == 0x57

/-- The Kiln Line after a break its receiver takes: HUNT, waiting for marking, and the Handler's queue and reply emptied. -/
def kilnBroken (s : State) : State :=
  { s with
    kiln := { s.kiln with
      awaitMarking := true, assembler := .hunt
      lastDiscard := match s.kiln.assembler with | .hunt => s.kiln.lastDiscard | .body _ => .charError }
    handler := { s.handler with intake := [], klRdy := true, replyPlace := none, completed := none }
    notices := { s.notices with lost := lostAfterBreak s } }

theorem receiveCharacter_kilnBreak {s : State} (h : s.kiln.awaitMarking = false) :
    receiveCharacter .kiln breakChar s = kilnBroken s := by
  have hl : s.listens .kiln = true := by simp [State.listens, h]
  have lost : (s.notices.lost || s.handler.replyPlace.any (answersCollect s)) = lostAfterBreak s := by
    have collect : answersCollect s = fun r =>
        r.frame.address == stationAddress s.straps.addr && r.requestKind == 0x57 := by
      funext r
      rw [answersCollect, requestOfKind_collect]
    rw [collect]
    rfl
  cases ha : s.kiln.assembler with
  | hunt =>
    have out : assemble (s.assemblerOf .kiln) breakChar = (.hunt, .quiet) := by rw [State.assemblerOf, ha]; rfl
    rw [receiveCharacter_taken hl out, kilnBroken, ← lost, ha]
    rfl
  | body r =>
    have out : assemble (s.assemblerOf .kiln) breakChar = (.hunt, .discarded .charError) := by
      rw [State.assemblerOf, ha]; rfl
    rw [receiveCharacter_taken hl out, kilnBroken, ← lost, ha]
    rfl

theorem receiveBreak_kiln_first {s : State} {c : CompletedFrame} (hc : s.handler.completed = some c)
    (h : s.kiln.awaitMarking = false) : receiveBreak (.kiln .breakFirst) s = admitAfterBreak c (kilnBroken s) := by
  have hl : s.listens .kiln = true := by simp [State.listens, h]
  simp only [receiveBreak, hc, hl, if_true, receiveCharacter_kilnBreak h]

theorem receiveBreak_kiln_plain {order : BreakOrder} {s : State}
    (h : order = .admissionFirst ∨ s.handler.completed = none) :
    receiveBreak (.kiln order) s = receiveCharacter .kiln breakChar s := by
  rcases receiveBreak_kiln order s with e | ⟨c, ho, hc, _⟩
  · exact e
  · rcases h with h | h
    · rw [h] at ho; cases ho
    · rw [h] at hc; cases hc

theorem receiveBreak_kiln_deaf {s : State} (order : BreakOrder) (h : s.kiln.awaitMarking = true) :
    receiveBreak (.kiln order) s = s := by
  have hl : s.listens .kiln = false := by simp [State.listens, h]
  rcases receiveBreak_kiln order s with e | ⟨c, _, _, hl', _⟩
  · rw [e, receiveCharacter_deaf _ hl]
  · rw [hl] at hl'; cases hl'

theorem listens_lineOf (s : State) (l : PairLine) : s.listens (lineOf l) = (s.unit l).listens := by cases l <;> rfl

theorem assemblerOf_lineOf (s : State) (l : PairLine) : s.assemblerOf (lineOf l) = (s.unit l).assembler := by
  cases l <;> rfl

theorem breakReport_pair (l : PairLine) (c : RxChar) (s : State) : breakReport (lineOf l) c s = s := by
  cases l <;> simp [breakReport, lineOf]

/-- A character taken by a pair's receiver is no Kiln Line break, whatever it is. -/
theorem receiveCharacter_pair {l : PairLine} {c : RxChar} {s : State} {a : Assembler} {e : AssemblerEvent}
    (hl : (s.unit l).listens = true) (ha : assemble (s.unit l).assembler c = (a, e)) :
    receiveCharacter (lineOf l) c s = concluded (lineOf l) c s a e := by
  rw [← listens_lineOf] at hl
  rw [← assemblerOf_lineOf] at ha
  rw [receiveCharacter_taken hl ha, breakReport_pair]

/-! ### The class of a Kiln address (R156) -/

theorem stationAddress_toNat : ∀ addr : BitVec 3, (stationAddress addr).toNat = 16 + addr.toNat := by decide

theorem windowBase_toNat : ∀ addr : BitVec 3, (windowBase addr).toNat = 128 + 16 * addr.toNat := by decide

theorem windowTarget_one {addr : BitVec 3} {a : Byte} {z : Fin 8} (h : a.toNat = 128 + 16 * addr.toNat + z.val) :
    windowTarget addr a = some (.one z) := by
  simp [windowTarget, windowBase_toNat, h]

theorem windowTarget_all {addr : BitVec 3} {a : Byte} (h : a.toNat = 128 + 16 * addr.toNat + 8) :
    windowTarget addr a = some .all := by
  simp [windowTarget, windowBase_toNat, h]

theorem windowTarget_outside {addr : BitVec 3} {a : Byte}
    (h : a.toNat < 128 + 16 * addr.toNat ∨ 128 + 16 * addr.toNat + 8 < a.toNat) : windowTarget addr a = none := by
  simp only [windowTarget, windowBase_toNat]
  split
  · rfl
  · rw [dif_neg (by omega), if_neg (by omega)]

theorem ne_station {addr : BitVec 3} {a : Byte} (h : a.toNat ≠ 16 + addr.toNat) : a ≠ stationAddress addr := by
  rintro rfl
  exact h (stationAddress_toNat addr)

theorem classify_station {addr : BitVec 3} {a : Byte} (slot : AddressSlot) (h : a.toNat = 16 + addr.toNat) :
    classify addr slot a = some .station := by
  rw [← stationAddress_toNat, BitVec.toNat_inj] at h
  simp [classify, h]

theorem classify_window {addr : BitVec 3} {a : Byte} {t : ZoneTarget} (slot : AddressSlot)
    (h : a.toNat ≠ 16 + addr.toNat) (ht : windowTarget addr a = some t) : classify addr slot a = some (.window t) := by
  simp [classify, ne_station h, ht]

/-- The classes of an address that is neither the station's nor in the zone window. -/
theorem classify_group {addr : BitVec 3} {a : Byte} (slot : AddressSlot) (h : a.toNat ≠ 16 + addr.toNat)
    (ht : a.toNat < 128 + 16 * addr.toNat ∨ 128 + 16 * addr.toNat + 8 < a.toNat) :
    classify addr slot a =
      if a = 0xFF#8 then some .broadcast else if slot.matchesAddress a then some .slot1 else none := by
  simp [classify, ne_station h, windowTarget_outside ht]

theorem matchesAddress_iff (slot : AddressSlot) (a : Byte) : slot.matchesAddress a = true ↔
    slot.valid = true ∧ ∀ k < 8, slot.mask.getLsbD k = true → a.getLsbD k = slot.address.getLsbD k := by
  rw [AddressSlot.matchesAddress, Bool.and_eq_true, beq_iff_eq]
  refine and_congr_right fun _ => ⟨fun h k _ hm => ?_, fun h => BitVec.eq_of_getLsbD_eq fun k hk => ?_⟩
  · simpa [hm] using congrArg (·.getLsbD k) h
  · cases hm : slot.mask.getLsbD k
    · simp [hm]
    · simp [hm, h k hk hm]

/-! ### Admission (R158, R159) -/

theorem groupKind_iff : ∀ k : Byte, groupKind k = true ↔ k = 0x62 ∨ k = 0x63 ∨ k = 0x65 := by decide +kernel

theorem admits_group {s : State} {cls : AddressClass} {k : Byte} (h : cls.isGroup = true) :
    admits s cls k = true ↔ (k = 0x62 ∨ k = 0x63 ∨ k = 0x65) ∧ s.param .groupControlEnable = 1 := by
  simp [admits, h, groupKind_iff]

theorem admits_alone {s : State} {cls : AddressClass} {k : Byte} (h : cls.isGroup = false) : admits s cls k = true := by
  simp [admits, h]

/-- The frame of the intake queue that a frame delivered makes. -/
def kilnFrameOf (f : Frame) (noisy : Bool) (cls : AddressClass) : KilnFrame :=
  { cls := cls, address := f.address, kind := f.kind, payload := f.payload, noisy := noisy }

theorem kilnDelivered_class {f : Frame} {noisy : Bool} {s : State} {cls : AddressClass}
    (h : classify s.straps.addr s.handler.slot1 f.address = some cls) : kilnDelivered f noisy s =
      if admits s cls f.kind then admitFrame (kilnFrameOf f noisy cls) (noteCompleted (kilnFrameOf f noisy cls) s)
      else s := by
  simp [kilnDelivered, h, kilnFrameOf]

theorem kilnDelivered_unmatched {f : Frame} {noisy : Bool} {s : State}
    (h : classify s.straps.addr s.handler.slot1 f.address = none) : kilnDelivered f noisy s = s := by
  simp [kilnDelivered, h]

end Sys2Proof.LineFraming
end

section
/-! CERTIFICATE. A BREAK character, a frame delivered on the Kiln Line, and the power-up values. -/

namespace Sys2Proof.LineFraming

open Sys2Proof.Machine
open Sys2Proof.Safety
open Sys2Proof.Laws

/-- Settles O7: on the Kiln Line in both orders of the break and an admission, and on a pair in HUNT and in BODY. -/
theorem breakCharacter : Obligations.BreakCharacter := by
  refine ⟨⟨fun order s h => ?_, fun order s h => ⟨fun ho => ?_, fun c ho hc => ?_⟩⟩, fun l s => ⟨fun h => ?_,
    fun h1 h2 h3 => ⟨fun ha => ?_, fun r ha => ?_⟩⟩⟩
  · rw [exec_breakCharacter, receiveBreak_kiln_deaf order h]
  · rw [exec_breakCharacter, receiveBreak_kiln_plain ho, receiveCharacter_kilnBreak h]
    rfl
  · subst ho
    rw [exec_breakCharacter, receiveBreak_kiln_first hc h, admitAfterBreak_empty _ _ rfl]
    rfl
  · have hl : s.listens (lineOf l) = false := by
      rw [listens_lineOf, ← Bool.not_eq_true, pairListens_iff]
      rintro ⟨h1, h2, h3⟩
      simp [h1, h2, h3] at h
    rw [exec_breakCharacter, receiveBreak_pair, receiveCharacter_deaf _ hl]
  · have out : assemble (s.unit l).assembler breakChar = (.hunt, .quiet) := by rw [ha]; rfl
    rw [exec_breakCharacter, receiveBreak_pair, receiveCharacter_pair ((pairListens_iff _).2 ⟨h1, h2, h3⟩) out]
    cases l <;> rfl
  · have out : assemble (s.unit l).assembler breakChar = (.hunt, .discarded .charError) := by rw [ha]; rfl
    rw [exec_breakCharacter, receiveBreak_pair, receiveCharacter_pair ((pairListens_iff _).2 ⟨h1, h2, h3⟩) out]
    cases l <;> rfl

/-- Settles O56: the class of the address, then admission by the class. -/
theorem admission : Obligations.Admission := by
  intro f noisy s a base joined group slot matched
  have hJoined : ∀ cls, admitFrame (kilnFrameOf f noisy cls) (noteCompleted (kilnFrameOf f noisy cls) s) = joined cls := by
    intro cls
    by_cases hn : s.handler.intake.length < 8 <;>
      simp [joined, admitFrame, noteCompleted, Handler.admitted, State.setHandler, kilnFrameOf, Config.intakeCapacity,
        Config.intakeHigh, hn]
  have alone : ∀ {cls}, classify s.straps.addr slot f.address = some cls → cls.isGroup = false →
      kilnDelivered f noisy s = joined cls := by
    intro cls hc hg
    rw [kilnDelivered_class hc, if_pos (admits_alone hg), hJoined]
  have grouped : ∀ {cls}, classify s.straps.addr slot f.address = some cls → cls.isGroup = true →
      kilnDelivered f noisy s = group cls := by
    intro cls hc hg
    rw [kilnDelivered_class hc, hJoined]
    exact if_congr (admits_group hg) rfl rfl
  have addr : s.straps.addr.toNat < 8 := s.straps.addr.isLt
  refine ⟨fun h => ?_, fun z h => ?_, fun h => ?_, fun h => ?_, fun h1 h2 h3 => ⟨fun hm => ?_, fun hm => ?_⟩⟩
  · exact alone (classify_station slot h) rfl
  · exact alone (classify_window slot (by omega) (windowTarget_one h)) rfl
  · exact alone (classify_window slot (by omega) (windowTarget_all h)) rfl
  · have ha : f.address = 0xFF#8 := BitVec.eq_of_toNat_eq h
    refine grouped ?_ rfl
    rw [classify_group slot (by omega) (by omega), if_pos ha]
  · have ha : f.address ≠ 0xFF#8 := fun e => h3 (by rw [show a = f.address.toNat from rfl, e]; rfl)
    refine grouped ?_ rfl
    rw [classify_group slot h1 h2, if_neg ha, if_pos ((matchesAddress_iff _ _).2 hm)]
  · have ha : f.address ≠ 0xFF#8 := fun e => h3 (by rw [show a = f.address.toNat from rfl, e]; rfl)
    refine kilnDelivered_unmatched ?_
    rw [classify_group s.handler.slot1 h1 h2, if_neg ha, if_neg (mt (matchesAddress_iff _ _).1 hm)]

end Sys2Proof.LineFraming
end

section
/-! SUPPORT. A pair unit at power-up (R13, R18), and what LINE_RESTART does to a line and its owner (R20, R43, R141). -/

namespace Sys2Proof.LineFraming

open Sys2Proof.Machine
open Sys2Proof.Safety
open Sys2Proof.Laws

theorem exec_powerUp (straps : Straps) (levels : PairLevels) (s : State) :
    exec (.powerUp straps levels) s = .next (powerUp straps levels s) := rfl

/-- R8, R12, R13, R18: what a pair unit holds at power-up, with the level found on its pair. -/
theorem unit_powerUp (straps : Straps) (levels : PairLevels) (s : State) (l : PairLine) :
    let u := (powerUp straps levels s).unit l
    u.assembler = .hunt ∧ u.lastDiscard = .none ∧ u.slot = .empty ∧
    u.spell = (if u.pairSpacing then .running 40 else .stopped) ∧
    u.idle = (if u.pairSpacing then .stopped else .running 24) := by
  cases l <;> exact ⟨rfl, rfl, rfl, rfl, rfl⟩

/-! ### The tables at power-up -/

theorem node_powerUp (straps : Straps) (levels : PairLevels) (s : State) (n : Fin 16) :
    (powerUp straps levels s).node n = nodeReset := Vector.getElem_replicate n.isLt

theorem probe_powerUp (straps : Straps) (levels : PairLevels) (s : State) (i : Fin 192) :
    (powerUp straps levels s).probe i = probeReset := Vector.getElem_replicate i.isLt

theorem zone_powerUp (straps : Straps) (levels : PairLevels) (s : State) (z : Fin 8) :
    (powerUp straps levels s).zone z = zoneReset := Vector.getElem_replicate z.isLt

theorem stepAt_powerUp (straps : Straps) (levels : PairLevels) (s : State) (i : Nat) :
    (powerUp straps levels s).sequencer.stepAt i = none := by
  have steps : (powerUp straps levels s).sequencer.steps = Vector.replicate 24 none := rfl
  rw [Sequencer.stepAt, steps, Vector.toList_replicate, List.getD_eq_getElem?_getD, List.getElem?_replicate]
  split <;> rfl

/-! ### LINE_RESTART -/

theorem lineRestartBody_badLength {p : List Byte} (h : p.length ≠ 1) (s : State) :
    lineRestartBody p s = .error .badLength := by
  match p, h with
  | [], _ => rfl
  | [_], h => exact absurd rfl h
  | _ :: _ :: _, _ => rfl

theorem lineRestartBody_range {n : Byte} (h : 1 < n.toNat) (s : State) : lineRestartBody [n] s = .error .range := by
  have h0 : n ≠ 0 := by rintro rfl; exact absurd h (by decide)
  have h1 : n ≠ 1 := by rintro rfl; exact absurd h (by decide)
  have line : pairLineOf n = none := (if_neg h0).trans (if_neg h1)
  simp only [lineRestartBody, line]

theorem lineRestartBody_line (l : PairLine) (s : State) : lineRestartBody [if l = .field then 0 else 1] s =
    done (restartLine l s) (b1 ((restartLine l s).unit l).lineState.code) := by
  cases l <;> rfl

theorem take_lineState (u : PairUnit) (f : Frame) : (u.take f).lineState = u.lineState := by
  unfold PairUnit.take; split <;> rfl

theorem sendScan_lineState (n : Fin 16) (k : Nat) (s : State) :
    (sendScan n k s).field.lineState = s.field.lineState := by
  unfold sendScan
  simp only
  split <;> exact take_lineState _ _

/-- R27: a cycle start hands a SCAN to the Field slot at most; the line's state stays. -/
theorem startCycle_lineState (s : State) : (startCycle s).field.lineState = s.field.lineState := by
  unfold startCycle
  simp only
  split
  · exact sendScan_lineState _ _ _
  · exact congrArg _ (scheduleOnly_closeEstimate _).field

theorem ownerRestart_lineState (l : PairLine) (s : State) :
    ((ownerRestart l s).unit l).lineState = (s.unit l).lineState := by
  cases l with
  | field =>
    show (pollerRestart s).field.lineState = s.field.lineState
    unfold pollerRestart
    simp only
    split
    · exact startCycle_lineState _
    · rfl
  | drive =>
    obtain ⟨_, _, _, h⟩ := (zonesOnly_abandonExchange s).trans (zonesOnly_openExchange _)
    show (openExchange (abandonExchange s)).drive.lineState = s.drive.lineState
    rw [h]

theorem scheduleOnly_lineState {s t : State} (h : ScheduleOnly s t) (l : PairLine) :
    (t.unit l).lineState = (s.unit l).lineState := by
  obtain ⟨_, _, _, _, _, rfl⟩ := h
  cases l <;> rfl

/-- R17, R20: a restart leaves the line in its return state. -/
theorem restartLine_lineState (l : PairLine) (s : State) :
    ((restartLine l s).unit l).lineState = (s.unit l).lineState.restored := by
  have owner : ((ownerRestart l (s.setUnit l ((s.unit l).restarted s.stuckLimit))).unit l).lineState =
      (s.unit l).lineState.restored := by
    rw [ownerRestart_lineState, State.unit_setUnit]
    rfl
  unfold restartLine
  simp only
  split
  · rw [scheduleOnly_lineState (scheduleOnly_removeCause _ _), owner]
  · exact owner

/-! ### A drive exchange abandoned (R140, R141) -/

theorem abandonExchange_none {s : State} (h : s.zones.exchange = none) : abandonExchange s = s := by
  simp [abandonExchange, h]

theorem putsBack_iff (s : State) (q : QueuedFrame) : putsBack s q = true ↔
    (∀ p ∈ s.zones.queue, p.zone ≠ q.zone) ∧ (s.zone q.zone).mode = q.modeAtBuild := by
  simp [putsBack]

theorem abandonExchange_back {s : State} {x : DriveExchange} (h : s.zones.exchange = some x)
    (hb : x.phase = .sending ∧ putsBack s x.entry = true) :
    abandonExchange s = (s.setQueue (x.entry :: s.zones.queue)).setExchange none := by
  simp [abandonExchange, h, hb]

theorem abandonExchange_dropped {s : State} {x : DriveExchange} (h : s.zones.exchange = some x)
    (hb : ¬ (x.phase = .sending ∧ putsBack s x.entry = true)) : abandonExchange s = s.setExchange none := by
  simp only [abandonExchange, h, if_neg hb]

/-! ### The front frame answered from the handler its execution leaves (R160, R161) -/

/-- A request of its kind that is answered DONE and sets slot 1 of the Handler. -/
theorem serveRequest_slot {k : Byte} {body : List Byte → State → Answer} {s : State} {f : KilnFrame}
    {rest : List KilnFrame} {data : List Byte} {slot : AddressSlot} (h : Asked s k f rest)
    (hb : body f.payload (Taken s rest) =
      done ((Taken s rest).setHandler { (Taken s rest).handler with slot1 := slot }) data) :
    serveRequest k body s = Answered { s with handler := { s.handler with slot1 := slot } } f rest data
      { s with handler := { s.handler with slot1 := slot } } := by
  have asked := isRequest_of_asked h
  obtain ⟨⟨hr, hi⟩, _⟩ := h
  have hb' : body f.payload (s.setHandler (s.handler.taken rest)) =
      done ((Taken s rest).setHandler { (Taken s rest).handler with slot1 := slot }) data := hb
  simp only [serveRequest, serveFront, State.front, hr, hi, asked, if_true, hb', done, answerFrame, placeReply]
  cases hg : f.cls.isGroup <;>
    simp [Answered, AnsweredWith, handlerAfter, hg, State.setHandler, Taken, replyTo, donePayload, doneHead, kindDone, hr]

/-! ### IDENTIFY, READ_LINE_STATUS and SET_ADDRESS_SLOT -/

theorem stationAddress_eq : ∀ addr : BitVec 3, stationAddress addr = 0x10 + BitVec.ofNat 8 addr.toNat := by decide

theorem windowBase_eq : ∀ addr : BitVec 3, windowBase addr = 0x80 + BitVec.ofNat 8 (16 * addr.toNat) := by decide

theorem identifyBody_payload {p : List Byte} (h : p ≠ []) (s : State) : identifyBody p s = .error .badLength := by
  cases p with
  | nil => exact absurd rfl h
  | cons => rfl

theorem readLineStatusBody_payload {p : List Byte} (h : p ≠ []) (s : State) :
    readLineStatusBody p s = .error .badLength := by
  cases p with
  | nil => exact absurd rfl h
  | cons => rfl

theorem setAddressSlotBody_badLength {p : List Byte} (h : p.length ≠ 3) (s : State) :
    setAddressSlotBody p s = .error .badLength := by
  match p, h with
  | [], _ | [_], _ | [_, _], _ => rfl
  | [_, _, _], h => exact absurd rfl h
  | _ :: _ :: _ :: _ :: _, _ => rfl

theorem setAddressSlotBody_range {a m v : Byte} (h : 1 < v.toNat) (s : State) :
    setAddressSlotBody [a, m, v] s = .error .range := if_pos h

theorem setAddressSlotBody_ok {a m v : Byte} (h : v = 0 ∨ v = 1) (s : State) : setAddressSlotBody [a, m, v] s =
    done (s.setHandler { s.handler with slot1 := { address := a, mask := m, valid := v == 1 } }) [a, m, v] := by
  rcases h with rfl | rfl <;> rfl

end Sys2Proof.LineFraming
end

section
/-! CERTIFICATE. The power-up values, and the requests on the part and its lines. -/

namespace Sys2Proof.LineFraming

open Sys2Proof.Machine
open Sys2Proof.Safety
open Sys2Proof.Laws

/-- Settles O32: each request's body on a payload of the right length and on any other. -/
theorem partRequests : Obligations.PartRequests := by
  refine ⟨⟨by decide, by decide, fun f rest s h => ⟨fun hp => ?_, fun hp => ?_⟩,
    fun f rest s h => ⟨fun hp => ?_, fun hp => ?_⟩⟩,
    fun f rest s h => ⟨fun hp => ?_, fun a m v hp => ⟨fun hv => ?_, fun hv => ?_⟩⟩⟩
  · rw [← stationAddress_eq, ← windowBase_eq]
    exact congrArg _ (serveRequest_read h (by rw [hp]; rfl))
  · exact congrArg _ (serveRequest_refused h (identifyBody_payload hp _))
  · exact congrArg _ (serveRequest_read h (by rw [hp]; rfl))
  · exact congrArg _ (serveRequest_refused h (readLineStatusBody_payload hp _))
  · exact congrArg _ (serveRequest_refused h (setAddressSlotBody_badLength hp _))
  · exact congrArg _ (serveRequest_refused h (by rw [hp]; exact setAddressSlotBody_range hv _))
  · exact congrArg _ (serveRequest_slot h (by rw [hp]; exact setAddressSlotBody_ok hv _))

/-- Settles O34: the restart of the unit, of its owner and of the schedule, and the two ends of an abandoned exchange. -/
theorem lineRestart : Obligations.LineRestart := by
  refine ⟨fun f rest s h => ⟨fun hp => ?_, fun n hp hn => ?_, ?_⟩, fun s h => abandonExchange_none h,
    fun x s hx => ⟨fun hb => ?_, fun hb => ?_⟩⟩
  · exact congrArg _ (serveRequest_refused h (lineRestartBody_badLength hp _))
  · exact congrArg _ (serveRequest_refused h (by rw [hp]; exact lineRestartBody_range hn _))
  · intro l hp u wait restored limit s1 cleared owner
    have hRestored : restored = (s.unit l).lineState.restored := by
      simp only [restored, u]
      rcases (s.unit l).lineState with _ | _ | (_ | _) <;> rfl
    have hUnit : s1 = (Taken s rest).setUnit l (((Taken s rest).unit l).restarted (Taken s rest).stuckLimit) := by
      simp only [s1, hRestored]
      cases l <;> rfl
    have hOwner : ownerRestart l s1 = owner := by cases l <;> rfl
    have restart : restartLine l (Taken s rest) = if u.lineState.isFault then
        removeCause (if l = .field then .fieldFault else .driveFault) owner else owner := by
      rw [restartLine, ← hUnit, hOwner]
      cases l <;> rfl
    have code : restored = ((restartLine l (Taken s rest)).unit l).lineState := by
      rw [restartLine_lineState, hRestored]
      cases l <;> rfl
    rw [← restart, code]
    refine congrArg _ (serveRequest_done h (by rw [hp]; exact lineRestartBody_line l _) ?_)
    exact (whole_restartLine l _).handler
  · refine (abandonExchange_back hx ?_).trans rfl
    rwa [putsBack_iff]
  · refine (abandonExchange_dropped hx ?_).trans rfl
    rwa [putsBack_iff]

/-- Settles O3: the reset state, with what the straps and the levels of the pairs set. -/
theorem powerUpValues : Obligations.PowerUpValues := by
  intro straps levels s
  have unit := unit_powerUp straps levels s
  have zone := zone_powerUp straps levels s
  refine ⟨_, exec_powerUp straps levels s, rfl, rfl, rfl, rfl, rfl, rfl, rfl, rfl, rfl,
    fun l => have ⟨assembler, discard, _⟩ := unit l; ⟨assembler, discard⟩, rfl, rfl, rfl, rfl,
    fun l => have ⟨_, _, _, timers⟩ := unit l; timers, node_powerUp straps levels s,
    rfl, rfl, rfl, rfl, rfl, rfl, rfl, rfl, probe_powerUp straps levels s, fun k => ?_, rfl, rfl, fun z => ?_,
    stepAt_powerUp straps levels s, rfl, rfl, rfl, rfl, rfl, rfl, rfl, rfl, rfl, rfl, rfl, rfl, fun z => ?_, ?_,
    rfl, rfl, rfl, fun i => ?_, rfl, rfl, rfl, rfl, rfl, rfl, rfl,
    fun l => have ⟨_, _, slot, _⟩ := unit l; slot, rfl, rfl, rfl⟩
  · exact Vector.getElem_replicate k.isLt
  · exact Vector.getElem_replicate z.isLt
  · rw [zone]
    exact ⟨rfl, rfl, rfl, rfl, rfl, rfl, rfl, rfl, rfl⟩
  · simp only [zone]
    rfl
  · exact Vector.getElem_replicate i.isLt

end Sys2Proof.LineFraming
end

section
/-! SUPPORT. What a report to the Zone Controller does to the zones (R128): it reads the zones, the Drive Line's state and
the schedule's content alone, and on a Drive Line that is not RUNNING it hands nothing over. -/

namespace Sys2Proof.LineFraming

open Sys2Proof.Machine
open Sys2Proof.Safety
open Sys2Proof.Laws

/-! ### What a report reads -/

/-- The states agree in what a frame build and a hand-over read. -/
structure Alike (s t : State) : Prop where
  zones : t.zones = s.zones
  line : t.drive.lineState = s.drive.lineState
  content : scheduleContent t.sequencer = scheduleContent s.sequencer

theorem Alike.zone {s t : State} (h : Alike s t) (z : Fin 8) : t.zone z = s.zone z := by
  unfold State.zone; rw [h.zones]

/-- R138: the zones after a hand-over that may be due. -/
def openedZones (line : LineState) (z : ZoneControl) : ZoneControl :=
  match z.exchange, z.queue with
  | none, q :: rest =>
    if line = .running then
      { z with queue := rest, exchange := some { entry := q, phase := .sending, timeout := .stopped } }
    else z
  | _, _ => z

theorem openExchange_zones (s : State) : (openExchange s).zones = openedZones s.drive.lineState s.zones := by
  unfold openExchange openedZones
  cases s.zones.exchange with
  | some x => rfl
  | none =>
    cases s.zones.queue with
    | nil => rfl
    | cons q rest =>
      simp only
      split <;> rfl

theorem openExchange_lineState (s : State) : (openExchange s).drive.lineState = s.drive.lineState := by
  obtain ⟨slot, h⟩ := openExchange_drive s
  rw [h]

theorem alike_openExchange {s t : State} (h : Alike s t) : Alike (openExchange s) (openExchange t) where
  zones := by rw [openExchange_zones, openExchange_zones, h.zones, h.line]
  line := by rw [openExchange_lineState, openExchange_lineState, h.line]
  content := by
    rw [(openExchange_keeps t).1, (openExchange_keeps s).1]
    exact h.content

theorem alike_enqueueFrame (q : QueuedFrame) {s t : State} (h : Alike s t) :
    Alike (enqueueFrame q s) (enqueueFrame q t) := by
  have opened := alike_openExchange h
  refine alike_openExchange ⟨?_, opened.line, opened.content⟩
  simp only [State.setQueue, opened.zones]

/-- A clamp notice adds a notice at most. -/
theorem clampNotice_eq (z : Fin 8) (f : SetpointFrame) (b : Bool) (s : State) :
    ∃ n, clampNotice z f b s = { s with notices := n } := by
  unfold clampNotice
  split
  · exact ⟨_, rfl⟩
  · exact ⟨_, rfl⟩

theorem alike_buildFrame (z : Fin 8) (c : FrameContent) {s t : State} (h : Alike s t) :
    Alike (buildFrame z c s) (buildFrame z c t) := by
  have built : builtFrame t z c = builtFrame s z c := by unfold builtFrame; rw [h.zone, h.zones]
  unfold buildFrame
  simp only [h.zone, built]
  refine alike_enqueueFrame _ ?_
  obtain ⟨n, hs⟩ := clampNotice_eq z (builtFrame s z c) (s.zone z).clampedLast (s.setZone z { s.zone z with
    lastBuilt := builtFrame s z c, nextTag := (s.zone z).nextTag + 1, clampedLast := (builtFrame s z c).marks.any })
  obtain ⟨m, ht⟩ := clampNotice_eq z (builtFrame s z c) (s.zone z).clampedLast (t.setZone z { s.zone z with
    lastBuilt := builtFrame s z c, nextTag := (s.zone z).nextTag + 1, clampedLast := (builtFrame s z c).marks.any })
  rw [hs, ht]
  exact ⟨by simp only [State.setZone, h.zones], h.line, h.content⟩

theorem alike_autoBuild (z : Fin 8) {s t : State} (h : Alike s t) : Alike (autoBuild s z) (autoBuild t z) := by
  unfold autoBuild
  rw [h.zone, h.content]
  split
  · exact alike_buildFrame z _ h
  · exact h

theorem alike_tellZones {s t : State} (h : Alike s t) : Alike (tellZones s) (tellZones t) := by
  unfold tellZones
  induction List.finRange 8 generalizing s t with
  | nil => exact h
  | cons z l ih => exact ih (alike_autoBuild z h)

/-! ### What a report keeps -/

theorem autoBuild_keeps (s : State) (z : Fin 8) : (autoBuild s z).zones.envelope = s.zones.envelope ∧
    (autoBuild s z).zones.periodTimer = s.zones.periodTimer := by
  unfold autoBuild
  split
  · exact (buildFrame_keeps _ _ _).2
  · exact ⟨rfl, rfl⟩

theorem tellZones_keeps (s : State) : (tellZones s).zones.envelope = s.zones.envelope ∧
    (tellZones s).zones.periodTimer = s.zones.periodTimer := by
  unfold tellZones
  induction List.finRange 8 generalizing s with
  | nil => exact ⟨rfl, rfl⟩
  | cons z l ih =>
    obtain ⟨envelope, period⟩ := autoBuild_keeps s z
    exact ⟨(ih _).1.trans envelope, (ih _).2.trans period⟩

/-- R128: the entry of a zone after a report. -/
def toldZone (s : State) (z : Fin 8) : ZoneEntry :=
  let f := builtFrame s z (scheduleContent s.sequencer)
  if (s.zone z).mode = .auto then
    { s.zone z with lastBuilt := f, nextTag := (s.zone z).nextTag + 1, clampedLast := f.marks.any }
  else s.zone z

theorem toldZone_congr {s t : State} {z : Fin 8} (h : SameFor z s t) : toldZone t z = toldZone s z := by
  unfold toldZone; rw [builtFrame_congr h, h.zone, h.sequencer]

theorem zone_autoBuild (s : State) (z : Fin 8) : (autoBuild s z).zone z = toldZone s z := by
  unfold autoBuild toldZone
  split
  · exact zone_buildFrame z _ s
  · rfl

theorem sameFor_autoBuild (s : State) (y z : Fin 8) (h : y ≠ z) : SameFor z s (autoBuild s y) := by
  unfold autoBuild
  split
  · exact sameFor_buildFrame _ s h
  · exact SameFor.refl z s

theorem zone_tellZones (s : State) (z : Fin 8) : (tellZones s).zone z = toldZone s z :=
  (zone_foldl sameFor_autoBuild (fun _ => True) (fun _ _ _ h => h) s (List.mem_finRange z) (List.nodup_finRange 8)
    fun u hu => ⟨(zone_autoBuild u z).trans (toldZone_congr hu), trivial⟩).1

/-! ### A report while the Drive Line is not RUNNING -/

theorem enqueueFrame_halted {s : State} (q : QueuedFrame) (h : s.drive.lineState ≠ .running) :
    enqueueFrame q s = s.setQueue (placeFrame q s.zones.queue) := by
  unfold enqueueFrame
  rw [openExchange_settled (s := s) (.inr (.inl h))]
  exact openExchange_settled (.inr (.inl h))

/-- A build hands nothing over: the Drive unit and the exchange stay, and the frame stands in the queue. -/
theorem buildFrame_halted {s : State} (z : Fin 8) (c : FrameContent) (h : s.drive.lineState ≠ .running) :
    (buildFrame z c s).drive = s.drive ∧ (buildFrame z c s).zones.exchange = s.zones.exchange ∧
    (buildFrame z c s).zones.queue =
      placeFrame { zone := z, frame := builtFrame s z c, modeAtBuild := (s.zone z).mode } s.zones.queue := by
  unfold buildFrame
  simp only
  obtain ⟨n, e⟩ := clampNotice_eq z (builtFrame s z c) (s.zone z).clampedLast (s.setZone z { s.zone z with
    lastBuilt := builtFrame s z c, nextTag := (s.zone z).nextTag + 1, clampedLast := (builtFrame s z c).marks.any })
  rw [e, enqueueFrame_halted _ (by exact h)]
  exact ⟨rfl, rfl, rfl⟩

theorem autoBuild_halted {s : State} (z : Fin 8) (h : s.drive.lineState ≠ .running) :
    (autoBuild s z).drive = s.drive ∧ (autoBuild s z).zones.exchange = s.zones.exchange := by
  unfold autoBuild
  split
  · obtain ⟨drive, exchange, _⟩ := buildFrame_halted z (scheduleContent s.sequencer) h
    exact ⟨drive, exchange⟩
  · exact ⟨rfl, rfl⟩

theorem tellZones_halted {s : State} (h : s.drive.lineState ≠ .running) :
    (tellZones s).drive = s.drive ∧ (tellZones s).zones.exchange = s.zones.exchange := by
  unfold tellZones
  induction List.finRange 8 generalizing s with
  | nil => exact ⟨rfl, rfl⟩
  | cons z l ih =>
    obtain ⟨drive, exchange⟩ := autoBuild_halted z h
    obtain ⟨drive', exchange'⟩ := ih (s := autoBuild s z) (by rw [drive]; exact h)
    exact ⟨drive'.trans drive, exchange'.trans exchange⟩

/-- A frame pending before is pending still, or its AUTO zone's new frame is. -/
def StillPending (q : QueuedFrame) (mode : ZoneMode) (z : ZoneControl) : Prop :=
  q ∈ z.queue ∨ (mode = .auto ∧ ∃ p ∈ z.queue, p.zone = q.zone ∧ p.frame = z.table[q.zone].lastBuilt)

theorem stillPending_autoBuild {s : State} {q : QueuedFrame} (y : Fin 8) (h : s.drive.lineState ≠ .running)
    (hq : StillPending q (s.zone q.zone).mode s.zones) :
    StillPending q ((autoBuild s y).zone q.zone).mode (autoBuild s y).zones := by
  by_cases hy : (s.zone y).mode = .auto
  · have built : autoBuild s y = buildFrame y (scheduleContent s.sequencer) s := if_pos hy
    obtain ⟨_, _, queue⟩ := buildFrame_halted y (scheduleContent s.sequencer) h
    rw [built]
    by_cases e : y = q.zone
    · subst e
      have zone := zone_buildFrame q.zone (scheduleContent s.sequencer) s
      refine .inr ⟨by rw [zone]; exact hy, ?_⟩
      rw [queue]
      exact ⟨_, mem_placeFrame _ _, rfl, (congrArg (·.lastBuilt) zone).symm⟩
    · have zone := zone_buildFrame_ne y q.zone (scheduleContent s.sequencer) s e
      rw [zone]
      have stays : ∀ p ∈ s.zones.queue, p.zone = q.zone →
          p ∈ (buildFrame y (scheduleContent s.sequencer) s).zones.queue := by
        intro p hp hz
        rw [queue]
        exact mem_placeFrame_ne hp fun e' => e (e'.symm.trans hz)
      rcases hq with hq | ⟨ha, p, hp, hz, hf⟩
      · exact .inl (stays q hq rfl)
      · exact .inr ⟨ha, p, stays p hp hz, hz, hf.trans (congrArg (·.lastBuilt) zone).symm⟩
  · have same : autoBuild s y = s := if_neg hy
    rw [same]
    exact hq

theorem stillPending_tellZones {s : State} {q : QueuedFrame} (h : s.drive.lineState ≠ .running)
    (hq : StillPending q (s.zone q.zone).mode s.zones) :
    StillPending q ((tellZones s).zone q.zone).mode (tellZones s).zones := by
  unfold tellZones
  induction List.finRange 8 generalizing s with
  | nil => exact hq
  | cons z l ih =>
    obtain ⟨drive, _⟩ := autoBuild_halted z h
    exact ih (by rw [drive]; exact h) (stillPending_autoBuild z h hq)

theorem toldZone_mode (s : State) (z : Fin 8) : (toldZone s z).mode = (s.zone z).mode := by
  unfold toldZone
  split <;> rfl

end Sys2Proof.LineFraming
end

section
/-! SUPPORT. The three parts of an entry to FAULT (R19): what each changes, and what they leave in each order, the notices
and the Drive slot aside. -/

namespace Sys2Proof.LineFraming

open Sys2Proof.Machine
open Sys2Proof.Safety
open Sys2Proof.Laws

/-! ### The owner told (R42, R140, R141) -/

/-- R42: the Poller with its attempt and cycle abandoned. -/
def abandonedPoller (p : Poller) : Poller :=
  { p with staging := none, phase := .idle, cycleTimer := .stopped, cycleDue := false }

/-- R140, R141: the zones with the exchange in flight abandoned. -/
def abandonedZones (z : ZoneControl) : ZoneControl :=
  match z.exchange with
  | none => z
  | some x =>
    if x.phase = .sending ∧ (z.queue.all (fun p => p.zone != x.entry.zone) &&
        z.table[x.entry.zone].mode == x.entry.modeAtBuild) then { z with queue := x.entry :: z.queue, exchange := none }
    else { z with exchange := none }

theorem abandonExchange_eq (s : State) : abandonExchange s = { s with zones := abandonedZones s.zones } := by
  unfold abandonExchange abandonedZones
  rcases s.zones.exchange with _ | x
  · rfl
  · simp only
    by_cases hb : x.phase = .sending ∧ putsBack s x.entry = true
    · rw [if_pos hb]
      exact congrArg (fun z => { s with zones := z }) (if_pos hb).symm
    · rw [if_neg hb]
      exact congrArg (fun z => { s with zones := z }) (if_neg hb).symm

/-- An exchange abandoned leaves the table, the envelope and the timer, and the queue keeps its frames. -/
theorem abandonedZones_keeps (z : ZoneControl) : (abandonedZones z).exchange = none ∧
    (abandonedZones z).table = z.table ∧ (abandonedZones z).envelope = z.envelope ∧
    (abandonedZones z).periodTimer = z.periodTimer ∧ ∀ q ∈ z.queue, q ∈ (abandonedZones z).queue := by
  unfold abandonedZones
  cases hx : z.exchange with
  | none => exact ⟨hx, rfl, rfl, rfl, fun _ h => h⟩
  | some x =>
    simp only
    split
    · exact ⟨rfl, rfl, rfl, rfl, fun _ h => List.mem_cons_of_mem _ h⟩
    · exact ⟨rfl, rfl, rfl, rfl, fun _ h => h⟩

/-! ### The Sequencer told (R111, R112) -/

/-- R111: the Sequencer with a hold cause added. -/
def heldFor (h : HoldCause) (q : Sequencer) : Sequencer :=
  if q.engaged && !q.causes.has h then { q with causes := q.causes.put h true, state := .held } else q

theorem heldFor_idle {h : HoldCause} {q : Sequencer} (hq : q.engaged = false) : heldFor h q = q := by
  simp [heldFor, hq]

theorem put_of_has {c : Causes} {h : HoldCause} (hc : c.has h = true) : c.put h true = c := by
  cases h <;> cases c <;> simp_all [Causes.has, Causes.put]

theorem isEmpty_of_has {c : Causes} {h : HoldCause} (hc : c.has h = true) : c.isEmpty = false := by
  cases h <;> simp_all [Causes.has, Causes.isEmpty]

/-- R111: an engaged schedule is HELD with the cause in its set. -/
theorem heldFor_engaged {h : HoldCause} {q : Sequencer} (sound : CausesSound q) (hq : q.engaged = true) :
    (heldFor h q).state = .held ∧ (heldFor h q).causes = q.causes.put h true := by
  cases hc : q.causes.has h
  · simp [heldFor, hq, hc]
  · have held : q.state = .held := sound.1 (isEmpty_of_has hc)
    simp [heldFor, hc, held, put_of_has hc]

theorem running_has {h : HoldCause} {q : Sequencer} (sound : CausesSound q) (hq : q.state = .running) :
    q.causes.has h = false := by
  rw [causes_empty sound (by rw [hq]; decide)]
  cases h <;> rfl

/-- What a report to the Zone Controller reads, in a state of its own. -/
def reportBasis (line : LineState) (q : Sequencer) (z : ZoneControl) : State :=
  { State.reset with drive := pairUnitReset line, sequencer := q, zones := z }

/-- R112, R128: the zones once a hold cause is added: a RUNNING schedule that becomes HELD is reported. -/
def causeZones (h : HoldCause) (line : LineState) (q : Sequencer) (z : ZoneControl) : ZoneControl :=
  if q.state = .running ∧ q.causes.has h = false then (tellZones (reportBasis line q z)).zones else z

theorem causeZones_not_running {h : HoldCause} {line : LineState} {q : Sequencer} {z : ZoneControl}
    (hq : q.state ≠ .running) : causeZones h line q z = z := if_neg fun e => hq e.1

theorem causeZones_running {h : HoldCause} {line : LineState} {q : Sequencer} {z : ZoneControl}
    (sound : CausesSound q) (hq : q.state = .running) :
    causeZones h line q z = (tellZones (reportBasis line q z)).zones := if_pos ⟨hq, running_has sound hq⟩

theorem causeZones_keeps (h : HoldCause) (line : LineState) (q : Sequencer) (z : ZoneControl) :
    (causeZones h line q z).envelope = z.envelope ∧ (causeZones h line q z).periodTimer = z.periodTimer := by
  unfold causeZones
  split
  · exact tellZones_keeps (reportBasis line q z)
  · exact ⟨rfl, rfl⟩

theorem causeZones_halted {h : HoldCause} {line : LineState} {q : Sequencer} {z : ZoneControl}
    (hl : line ≠ .running) : (causeZones h line q z).exchange = z.exchange := by
  unfold causeZones
  split
  · exact (tellZones_halted (s := reportBasis line q z) hl).2
  · rfl

/-- While the Drive Line is not RUNNING, each frame of the queue stays or makes room for its AUTO zone's new one. -/
theorem stillPending_causeZones {h : HoldCause} {line : LineState} {q : Sequencer} {z : ZoneControl} {x : QueuedFrame}
    (hl : line ≠ .running) (hx : x ∈ z.queue) : StillPending x z.table[x.zone].mode (causeZones h line q z) := by
  unfold causeZones
  split
  · have pending := stillPending_tellZones (s := reportBasis line q z) hl (.inl hx)
    rw [zone_tellZones, toldZone_mode] at pending
    exact pending
  · exact .inl hx

/-- R128: a frame's content is the same in RUNNING and in HELD. -/
theorem scheduleContent_held {q : Sequencer} (c : Causes) (hq : q.state = .running) :
    scheduleContent { q with causes := c, state := .held } = scheduleContent q := by
  have step : ({ q with causes := c, state := .held } : Sequencer).currentStep = q.currentStep := rfl
  have dry : ({ q with causes := c, state := .held } : Sequencer).publishedDry = q.publishedDry := by
    simp [Sequencer.publishedDry, Sequencer.engaged, hq]
  have wet : ({ q with causes := c, state := .held } : Sequencer).publishedWet = q.publishedWet := by
    unfold Sequencer.publishedWet
    rw [step, dry]
  unfold scheduleContent
  rw [step, dry, wet]

theorem addCause_absent {h : HoldCause} {s : State} (he : s.sequencer.engaged = true)
    (hc : s.sequencer.causes.has h = false) :
    addCause h s = changeHold (s.sequencer.causes.put h true) .held s := by
  simp [addCause, he, hc]

theorem addCause_sequencer (h : HoldCause) (s : State) : (addCause h s).sequencer = heldFor h s.sequencer := by
  unfold addCause heldFor
  split
  · unfold changeHold
    simp only
    split
    · rfl
    · rw [(calm_tellZones _).sequencer]; rfl
  · rfl

theorem addCause_zones (h : HoldCause) (s : State) :
    (addCause h s).zones = causeZones h s.drive.lineState s.sequencer s.zones := by
  by_cases hc : s.sequencer.engaged = true ∧ s.sequencer.causes.has h = false
  · obtain ⟨he, hc⟩ := hc
    rw [addCause_absent he hc, changeHold]
    simp only
    split
    · next held => exact (causeZones_not_running (by rw [held]; decide)).symm
    · next running =>
      have running : s.sequencer.state = .running := ((engaged_iff _).1 he).resolve_right running
      have alike : Alike (reportBasis s.drive.lineState s.sequencer s.zones)
          (scheduleNotice (s.setSequencer
            { s.sequencer with causes := s.sequencer.causes.put h true, state := .held })) :=
        ⟨rfl, rfl, scheduleContent_held _ running⟩
      rw [causeZones, if_pos ⟨running, hc⟩]
      exact (alike_tellZones alike).zones
  · have same : addCause h s = s := by
      unfold addCause
      rw [if_neg (by simpa using hc)]
    rw [same, causeZones, if_neg]
    exact fun e => hc ⟨(engaged_iff _).2 (.inl e.1), e.2⟩

theorem addCause_drive {h : HoldCause} {s : State} (hl : s.drive.lineState ≠ .running) :
    (addCause h s).drive = s.drive := by
  unfold addCause changeHold
  split
  · simp only
    split
    · rfl
    · exact (tellZones_halted (by exact hl)).1
  · rfl

/-- R111, R112: a hold cause added changes the Sequencer, the zones, the Drive slot and the notices. -/
theorem addCause_eq (h : HoldCause) (s : State) : ∃ slot n, addCause h s = { s with
    sequencer := heldFor h s.sequencer, zones := causeZones h s.drive.lineState s.sequencer s.zones
    drive := { s.drive with slot := slot }, notices := n } := by
  have rest : ∃ q z slot n, addCause h s =
      { s with sequencer := q, zones := z, drive := { s.drive with slot := slot }, notices := n } := by
    unfold addCause changeHold
    split
    · simp only
      split
      · exact ⟨_, s.zones, s.drive.slot, _, rfl⟩
      · obtain ⟨z, slot, n, e⟩ := zonesOnly_tellZones (scheduleNotice (s.setSequencer { s.sequencer with
          causes := s.sequencer.causes.put h true, state := .held }))
        exact ⟨_, z, slot, n, e⟩
    · exact ⟨s.sequencer, s.zones, s.drive.slot, s.notices, rfl⟩
  obtain ⟨q, z, slot, n, e⟩ := rest
  have hq := addCause_sequencer h s
  have hz := addCause_zones h s
  rw [e] at hq hz
  exact ⟨slot, n, by rw [e, ← hq, ← hz]⟩

/-! ### The Fault Record Set told (R146, R147) -/

/-- R146, R147: the fault set after a fault. -/
def raisedFaults (f : FaultSet) (source : FaultSource) (reason : FaultReason) (detail : Option Int) (minute : Nat) :
    FaultSet :=
  match f.matching source reason with
  | some i => { f with records := f.records.set i (f.records[i].map (·.repeated minute detail)) }
  | none =>
    match f.lowestFree with
    | some i => { f with records := f.records.set i (some (newRecord source reason detail minute)) }
    | none => { f with overflow := true }

theorem raiseFault_eq (source : FaultSource) (reason : FaultReason) (detail : Option Int) (s : State) :
    ∃ n, raiseFault source reason detail s =
      { s with faults := raisedFaults s.faults source reason detail s.uptime, notices := n } := by
  unfold raiseFault raisedFaults
  cases s.faults.matching source reason with
  | some i => exact ⟨s.notices, rfl⟩
  | none =>
    unfold recordFault
    simp only
    cases s.faults.lowestFree with
    | some i => exact ⟨_, rfl⟩
    | none =>
      unfold loseFault
      simp only
      split
      · next full =>
        have same : s.faults = { s.faults with overflow := true } := by rw [← full]
        exact ⟨s.notices, by rw [← same]⟩
      · exact ⟨_, rfl⟩

/-- R146, R147: the record of a fault is present unless the set was full and held none. -/
theorem raisedFaults_present {f : FaultSet} {source : FaultSource} {reason : FaultReason} (detail : Option Int)
    (minute : Nat) (room : ∃ i : Fin 16, f.records[i] = none ∨
      ∃ r, f.records[i] = some r ∧ r.source = source ∧ r.reason = reason) :
    ∃ (i : Fin 16) (r : FaultRecord), (raisedFaults f source reason detail minute).records[i] = some r ∧
      r.source = source ∧ r.reason = reason ∧ r.lastSeen = minute ∧ r.detail = detail := by
  unfold raisedFaults
  cases hm : f.matching source reason with
  | some i =>
    obtain ⟨r, hr, hs, hw⟩ := matching_some hm
    exact ⟨i, r.repeated minute detail, by simp [show f.records[i.val] = some r from hr], hs, hw, rfl, rfl⟩
  | none =>
    simp only
    cases hf : f.lowestFree with
    | some i => exact ⟨i, newRecord source reason detail minute, by simp, rfl, rfl, rfl, rfl⟩
    | none =>
      exfalso
      obtain ⟨i, free | ⟨r, hr, hs, hw⟩⟩ := room
      · have taken := List.find?_eq_none.1 hf i (List.mem_finRange i)
        exact taken (by rw [free]; rfl)
      · exact matching_none hm hr ⟨hs, hw⟩

/-! ### The three told in any order -/

/-- The same state but for the notices and the Drive slot. -/
def UpToNotices (s t : State) : Prop := ∃ slot n, t = { s with drive := { s.drive with slot := slot }, notices := n }

/-- R42: the Poller once the owner is told. -/
def ownerPoller (l : PairLine) (p : Poller) : Poller :=
  match l with
  | .field => abandonedPoller p
  | .drive => p

/-- R140, R141: the zones once the owner is told. -/
def ownerZones (l : PairLine) (z : ZoneControl) : ZoneControl :=
  match l with
  | .field => z
  | .drive => abandonedZones z

theorem ownerZones_keeps (l : PairLine) (z : ZoneControl) : (ownerZones l z).table = z.table ∧
    (ownerZones l z).envelope = z.envelope ∧ (ownerZones l z).periodTimer = z.periodTimer ∧
    ∀ q ∈ z.queue, q ∈ (ownerZones l z).queue := by
  cases l with
  | field => exact ⟨rfl, rfl, rfl, fun _ h => h⟩
  | drive => exact (abandonedZones_keeps z).2

/-- What telling the owner changes. -/
def ownerTold (l : PairLine) (s : State) : State :=
  { s with poller := ownerPoller l s.poller, zones := ownerZones l s.zones }

/-- What telling the Sequencer changes, the notices and the Drive slot aside. -/
def sequencerTold (l : PairLine) (s : State) : State :=
  { s with
    sequencer := heldFor (lineCause l) s.sequencer
    zones := causeZones (lineCause l) s.drive.lineState s.sequencer s.zones }

/-- What telling the Fault Record Set changes, the notices aside. -/
def recordTold (l : PairLine) (s : State) : State :=
  { s with faults := raisedFaults s.faults (.line l) .lineStuck none s.uptime }

theorem UpToNotices.refl (s : State) : UpToNotices s s := ⟨s.drive.slot, s.notices, rfl⟩

theorem UpToNotices.owner {s t : State} (l : PairLine) (h : UpToNotices s t) :
    UpToNotices (ownerTold l s) (ownerFault l t) := by
  obtain ⟨slot, n, rfl⟩ := h
  cases l with
  | field => exact ⟨slot, n, rfl⟩
  | drive => exact ⟨slot, n, abandonExchange_eq _⟩

theorem UpToNotices.sequencer {s t : State} (l : PairLine) (h : UpToNotices s t) :
    UpToNotices (sequencerTold l s) (addCause (lineCause l) t) := by
  obtain ⟨slot, n, rfl⟩ := h
  obtain ⟨slot', n', e⟩ := addCause_eq (lineCause l) { s with drive := { s.drive with slot := slot }, notices := n }
  exact ⟨slot', n', e⟩

theorem UpToNotices.record {s t : State} (l : PairLine) (h : UpToNotices s t) :
    UpToNotices (recordTold l s) (recordStuck l t) := by
  obtain ⟨slot, n, rfl⟩ := h
  obtain ⟨n', e⟩ := raiseFault_eq (.line l) .lineStuck none { s with drive := { s.drive with slot := slot }, notices := n }
  exact ⟨slot, n', e⟩

/-- R19: the parts of an entry to FAULT in the order of the event come to the record after the other two, of which either
is told first. -/
theorem tellFault_upToNotices (l : PairLine) (order : FaultOrder) (s : State) :
    UpToNotices (recordTold l (sequencerTold l (ownerTold l s))) (tellFault l order s) ∨
    UpToNotices (recordTold l (ownerTold l (sequencerTold l s))) (tellFault l order s) := by
  have start := UpToNotices.refl s
  cases order with
  | ownerSequencerRecord => exact .inl (((start.owner l).sequencer l).record l)
  | ownerRecordSequencer => exact .inl (((start.owner l).record l).sequencer l)
  | sequencerOwnerRecord => exact .inr (((start.sequencer l).owner l).record l)
  | sequencerRecordOwner => exact .inr (((start.sequencer l).record l).owner l)
  | recordOwnerSequencer => exact .inl (((start.record l).owner l).sequencer l)
  | recordSequencerOwner => exact .inr (((start.record l).sequencer l).owner l)

/-- R19: what an entry to FAULT leaves in each part of the state, in any order. -/
structure Told (l : PairLine) (s t : State) : Prop where
  field : t.field = s.field
  drive : ∃ slot, t.drive = { s.drive with slot := slot }
  poller : t.poller = ownerPoller l s.poller
  sequencer : t.sequencer = heldFor (lineCause l) s.sequencer
  faults : t.faults = raisedFaults s.faults (.line l) .lineStuck none s.uptime
  zones : t.zones = causeZones (lineCause l) s.drive.lineState s.sequencer (ownerZones l s.zones) ∨
    t.zones = ownerZones l (causeZones (lineCause l) s.drive.lineState s.sequencer s.zones)
  rest : t.probes = s.probes ∧ t.curves = s.curves ∧ t.estimator = s.estimator ∧ t.kiln = s.kiln ∧
    t.handler = s.handler ∧ t.params = s.params ∧ t.uptime = s.uptime ∧ t.pending = s.pending ∧ t.straps = s.straps

theorem told_tellFault (l : PairLine) (order : FaultOrder) (s : State) : Told l s (tellFault l order s) := by
  rcases tellFault_upToNotices l order s with ⟨slot, n, e⟩ | ⟨slot, n, e⟩
  · rw [e]
    exact ⟨rfl, ⟨slot, rfl⟩, rfl, rfl, rfl, .inl rfl, rfl, rfl, rfl, rfl, rfl, rfl, rfl, rfl, rfl⟩
  · rw [e]
    exact ⟨rfl, ⟨slot, rfl⟩, rfl, rfl, rfl, .inr rfl, rfl, rfl, rfl, rfl, rfl, rfl, rfl, rfl, rfl⟩

namespace Told

variable {l : PairLine} {s t : State}

theorem zones_keep (h : Told l s t) :
    t.zones.envelope = s.zones.envelope ∧ t.zones.periodTimer = s.zones.periodTimer := by
  rcases h.zones with e | e
  · obtain ⟨envelope, period⟩ := causeZones_keeps (lineCause l) s.drive.lineState s.sequencer (ownerZones l s.zones)
    obtain ⟨_, envelope', period', _⟩ := ownerZones_keeps l s.zones
    rw [e]
    exact ⟨envelope.trans envelope', period.trans period'⟩
  · obtain ⟨envelope, period⟩ := causeZones_keeps (lineCause l) s.drive.lineState s.sequencer s.zones
    obtain ⟨_, envelope', period', _⟩ :=
      ownerZones_keeps l (causeZones (lineCause l) s.drive.lineState s.sequencer s.zones)
    rw [e]
    exact ⟨envelope'.trans envelope, period'.trans period⟩

theorem zones_not_running (h : Told l s t) (hq : s.sequencer.state ≠ .running) : t.zones = ownerZones l s.zones := by
  have e := h.zones
  simp only [causeZones_not_running hq, or_self] at e
  exact e

/-- R128: each zone of a schedule that was RUNNING is left as a schedule event leaves it. -/
theorem zone_running (h : Told l s t) (sound : CausesSound s.sequencer) (hq : s.sequencer.state = .running) (z : Fin 8) :
    t.zone z = (tellZones s).zone z := by
  have report : ∀ y : ZoneControl, y.table = s.zones.table → y.envelope = s.zones.envelope →
      y.periodTimer = s.zones.periodTimer →
      (causeZones (lineCause l) s.drive.lineState s.sequencer y).table[z] = (tellZones s).zone z := by
    intro y table envelope period
    rw [causeZones_running sound hq, zone_tellZones]
    refine (zone_tellZones _ z).trans (toldZone_congr ⟨?_, rfl, envelope, period⟩)
    exact congrArg (·[z]) table
  obtain ⟨table, envelope, period, _⟩ := ownerZones_keeps l s.zones
  unfold State.zone
  rcases h.zones with e | e
  · rw [e]
    exact report _ table envelope period
  · rw [e, (ownerZones_keeps l _).1]
    exact report _ rfl rfl rfl

/-- An entry of the Field Line to FAULT leaves the zones as the report of the hold does. -/
theorem zones_running_field (h : Told .field s t) (sound : CausesSound s.sequencer)
    (hq : s.sequencer.state = .running) : t.zones = (tellZones s).zones := by
  have zones : t.zones = causeZones .fieldFault s.drive.lineState s.sequencer s.zones := h.zones.elim id id
  have alike : Alike (reportBasis s.drive.lineState s.sequencer s.zones) s := ⟨rfl, rfl, rfl⟩
  rw [zones, causeZones_running sound hq]
  exact (alike_tellZones alike).zones.symm

theorem exchange_none (h : Told .drive s t) (hl : s.drive.lineState ≠ .running) : t.zones.exchange = none := by
  rcases h.zones with e | e
  · rw [e, causeZones_halted hl]
    exact (abandonedZones_keeps _).1
  · rw [e]
    exact (abandonedZones_keeps _).1

theorem stillPending (h : Told l s t) (hl : s.drive.lineState ≠ .running) {q : QueuedFrame} (hq : q ∈ s.zones.queue) :
    StillPending q (s.zone q.zone).mode t.zones := by
  rcases h.zones with e | e
  · obtain ⟨table, _, _, queue⟩ := ownerZones_keeps l s.zones
    have pending := stillPending_causeZones (h := lineCause l) (q := s.sequencer) hl (queue q hq)
    rw [table] at pending
    rw [e]
    exact pending
  · obtain ⟨table, _, _, queue⟩ :=
      ownerZones_keeps l (causeZones (lineCause l) s.drive.lineState s.sequencer s.zones)
    rw [e]
    rcases stillPending_causeZones (h := lineCause l) (q := s.sequencer) hl hq with stays | ⟨auto, p, hp, hz, hf⟩
    · exact .inl (queue q stays)
    · exact .inr ⟨auto, p, queue p hp, hz, by rw [table]; exact hf⟩

end Told

/-- On a Drive Line that is not RUNNING an entry to FAULT leaves the Drive unit as it is. -/
theorem tellFault_drive {l : PairLine} {s : State} (order : FaultOrder) (h : s.drive.lineState ≠ .running) :
    (tellFault l order s).drive = s.drive := by
  have owner : ∀ t : State, (ownerFault l t).drive = t.drive := by
    intro t
    cases l with
    | field => rfl
    | drive =>
      show (abandonExchange t).drive = t.drive
      rw [abandonExchange_eq]
  have record : ∀ t : State, (recordStuck l t).drive = t.drive := by
    intro t
    obtain ⟨n, e⟩ := raiseFault_eq (.line l) .lineStuck none t
    show (raiseFault (.line l) .lineStuck none t).drive = t.drive
    rw [e]
  have cause : ∀ t : State, t.drive = s.drive → (addCause (lineCause l) t).drive = s.drive := by
    intro t ht
    rw [addCause_drive (by rw [ht]; exact h), ht]
  cases order <;> simp [tellFault, owner, record, cause]

end Sys2Proof.LineFraming
end

section
/-! CERTIFICATE. The entry of a line to FAULT. -/

namespace Sys2Proof.LineFraming

open Sys2Proof.Machine
open Sys2Proof.Safety
open Sys2Proof.Laws

theorem faulted_eq {u : PairUnit} (h : u.lineState.isFault = false) : u.faulted = { u with
    lineState := .fault (if u.lineState = .halted then .halted else .running), slot := .empty, assembler := .hunt
    spell := .stopped } := by
  unfold PairUnit.faulted
  cases hl : u.lineState with
  | halted => rfl
  | running => rfl
  | fault r => rw [hl] at h; cases h

theorem stuckExpired_spell {l : PairLine} {s : State} {limit : Nat} (order : FaultOrder)
    (hs : (s.unit l).spell = .running limit) (hf : (s.unit l).lineState.isFault = false) :
    stuckExpired l order s = tellFault l order (s.setUnit l (s.unit l).faulted) := by
  simp [stuckExpired, hs, hf]

theorem exec_stuckLimitExpiry {l : PairLine} {s : State} {limit : Nat} (order : FaultOrder)
    (hs : (s.unit l).spell = .running limit) (hf : (s.unit l).lineState.isFault = false) :
    exec (.stuckLimitExpiry l order) s = .next (tellFault l order (s.setUnit l (s.unit l).faulted)) :=
  congrArg _ (stuckExpired_spell order hs hf)

/-- Settles O10: `Told` of the unit's entry to FAULT, read part by part. -/
theorem stuckLimit : Obligations.StuckLimit := by
  intro l order limit s hs hf fallen owner cause record u t
  have ht : t = tellFault l order u := by cases l <;> cases order <;> rfl
  have told : Told l u t := ht ▸ told_tellFault l order u
  have hSequencer : u.sequencer = s.sequencer := State.setUnit_sequencer s l fallen
  have hZones : u.zones = s.zones := State.setUnit_zones s l fallen
  have hZone : ∀ z, u.zone z = s.zone z := fun z => congrArg (·.table[z]) hZones
  have halted : l = .drive → u.drive.lineState ≠ .running := by rintro rfl; exact nofun
  have report : ∀ z, (tellZones u).zone z = (tellZones s).zone z := by
    intro z
    rw [zone_tellZones, zone_tellZones]
    exact toldZone_congr ⟨hZone z, hSequencer, congrArg (·.envelope) hZones, congrArg (·.periodTimer) hZones⟩
  refine ⟨?next, ?unit, ?poller, ?driveSlot, ?exchange, ?idleZones, ?runningZones, ?queue, ?envelope, ?period, ?held,
    ?sequencer, ?record, ?rest⟩
  case next => rw [exec_stuckLimitExpiry order hs hf, faulted_eq hf, ht]
  case unit =>
    cases l with
    | field => exact told.field
    | drive =>
      rw [ht]
      exact tellFault_drive order (halted rfl)
  case poller =>
    rintro rfl
    exact told.poller
  case driveSlot =>
    rintro rfl
    obtain ⟨slot, e⟩ := told.drive
    rw [e]
    rfl
  case exchange =>
    rintro rfl
    exact ⟨told.exchange_none (halted rfl), told.poller, told.field⟩
  case idleZones =>
    intro hq
    rw [told.zones_not_running (by rw [hSequencer]; exact hq), hZones]
    cases l with
    | field => rfl
    | drive => exact (congrArg State.zones (abandonExchange_eq s)).symm
  case runningZones =>
    intro sound hq
    rw [← hSequencer] at sound hq
    refine ⟨fun z => (told.zone_running sound hq z).trans (report z), ?_⟩
    rintro rfl
    have alike : Alike s u := ⟨rfl, rfl, rfl⟩
    exact (told.zones_running_field sound hq).trans (alike_tellZones alike).zones
  case queue =>
    intro hl q hq
    rw [← hZones] at hq
    have pending := told.stillPending (halted hl) hq
    rw [hZone] at pending
    exact pending
  case envelope => rw [told.zones_keep.1, hZones]
  case period => rw [told.zones_keep.2, hZones]
  case held =>
    intro sound hq
    rw [told.sequencer, hSequencer]
    obtain ⟨state, causes⟩ := heldFor_engaged (h := lineCause l) sound hq
    refine ⟨state, causes.trans ?_⟩
    cases l <;> rfl
  case sequencer =>
    intro hq
    rw [told.sequencer, hSequencer, heldFor_idle hq]
  case record =>
    intro room
    have faults : u.faults = s.faults := State.setUnit_faults s l fallen
    have uptime : u.uptime = s.uptime := State.setUnit_uptime s l fallen
    rw [told.faults, faults, uptime]
    exact raisedFaults_present none s.uptime room
  case rest => cases l <;> exact told.rest

end Sys2Proof.LineFraming
end

section
/-! SUPPORT. The tables of the part (parameters, curves, probe map, node table, figures, Drive Queue) through the commands
that no other law speaks of: power-up, the Kiln Line, and the taking and answering of the front frame. -/

namespace Sys2Proof.ProbePolling

open Sys2Proof.Machine
open Sys2Proof.Safety
open Sys2Proof.Laws

/-! ### The power-up state (R23, R24, R46, R67, R111, R136, R145, R151, R159, R164) -/

theorem reset_intake : IntakeSound State.reset.handler := ⟨by decide, fun _ => by decide, nofun⟩

theorem reset_notices : NoticesSound State.reset.notices := by unfold NoticesSound; decide

theorem reset_causes : CausesSound State.reset.sequencer := by unfold CausesSound; decide

theorem reset_faults : FaultsSound State.reset.faults := by
  intro i j a b h
  simp [State.reset] at h

theorem reset_stepAt (i : Nat) : State.reset.sequencer.stepAt i = none :=
  LineFraming.stepAt_powerUp State.reset.straps { field := false, drive := false, kiln := false } State.reset i

theorem reset_table : TableSound State.reset.sequencer where
  records i r h := by rw [reset_stepAt] at h; cases h
  count := by decide
  loaded i h := absurd h (Nat.not_lt_zero i)

theorem reset_schedule : ScheduleSound State.reset.sequencer :=
  scheduleSound_idle reset_table (by decide) (by decide) rfl

theorem reset_queue : QueueSound State.reset.zones := by unfold QueueSound; decide

theorem reset_params : ParamsSound State.reset.params := by unfold ParamsSound; decide

theorem reset_curves : CurvesSound State.reset.curves := by
  intro k h
  simp [State.reset, profileReset] at h

theorem reset_entry (i : Fin 192) : State.reset.probes[i] = probeReset := Vector.getElem_replicate i.isLt

theorem reset_node (n : Fin 16) : State.reset.poller.nodes[n] = nodeReset := Vector.getElem_replicate n.isLt

theorem reset_probes : ProbesSound State.reset.probes :=
  ⟨fun i => by rw [reset_entry]; rfl, fun i j a b h => by rw [reset_entry] at h; cases h⟩

theorem reset_figures : FiguresSound State.reset.probes := fun i => by
  rw [reset_entry]
  rintro (h | h) <;> cases h

theorem reset_nodes : NodesSound State.reset.poller.nodes State.reset.probes := by
  have unmapped : ∀ (i : Fin 192) (m : Mapping), State.reset.probes[i].mapping ≠ some m := fun i m h => by
    rw [reset_entry] at h
    cases h
  intro n
  rw [reset_node]
  refine ⟨⟨fun _ i m h => absurd h (unmapped i m), fun _ => rfl⟩, fun c => ⟨fun h => ?_, fun ⟨i, m, h, _⟩ =>
    absurd h (unmapped i m)⟩⟩
  simp [nodeReset] at h

/-! ### From a state to a state that keeps each table sound -/

/-- What a step keeps of the parameters, curves, probe map, node table, figures and Drive Queue. -/
structure TablesFollow (s t : State) : Prop where
  params  : ParamsSound s.params → ParamsSound t.params
  curves  : CurvesSound s.curves → CurvesSound t.curves
  probes  : ProbesSound s.probes → ProbesSound t.probes
  nodes   : ProbesSound s.probes → NodesSound s.poller.nodes s.probes → NodesSound t.poller.nodes t.probes
  figures : FiguresSound s.probes → FiguresSound t.probes
  queue   : QueueSound s.zones → QueueSound t.zones

theorem TablesFollow.trans {s t u : State} (h : TablesFollow s t) (k : TablesFollow t u) : TablesFollow s u where
  params := k.params ∘ h.params
  curves := k.curves ∘ h.curves
  probes := k.probes ∘ h.probes
  nodes hp hn := k.nodes (h.probes hp) (h.nodes hp hn)
  figures := k.figures ∘ h.figures
  queue := k.queue ∘ h.queue

/-- A state with the very same tables. -/
theorem TablesFollow.of_eq {s t : State} (h1 : t.params = s.params := by rfl) (h2 : t.curves = s.curves := by rfl)
    (h3 : t.probes = s.probes := by rfl) (h4 : t.poller.nodes = s.poller.nodes := by rfl)
    (h5 : t.zones.queue = s.zones.queue := by rfl) : TablesFollow s t where
  params := by rw [h1]; exact id
  curves := by rw [h2]; exact id
  probes := by rw [h3]; exact id
  nodes := by rw [h3, h4]; exact fun _ h => h
  figures := by rw [h3]; exact id
  queue := by unfold QueueSound; rw [h5]; exact id

theorem tablesFollow_refl (s : State) : TablesFollow s s := .of_eq

theorem tablesFollow_of_kept {s t : State} (h : Kept s t) : TablesFollow s t :=
  ⟨h.params, h.curves, h.probes, h.nodes, h.figures, h.queue⟩

theorem tablesFollow_of_outer {s t : State} (h : Outer s t) : TablesFollow s t where
  params := by rw [h.params]; exact id
  curves := by rw [h.curves]; exact id
  probes := probesSound_of_maps fun i => ⟨(h.maps i).1, (h.maps i).2.1⟩
  nodes _ := nodesSound_of_maps (fun i => (h.maps i).1) h.nodes
  figures hf i := (h.maps i).2.2 (hf i)
  queue := h.queue

/-! ### Power-up, the Kiln Line and the minute tick -/

theorem tablesFollow_powerUp (straps : Straps) (levels : PairLevels) (s : State) :
    TablesFollow s (powerUp straps levels s) where
  params _ := reset_params
  curves _ := reset_curves
  probes _ := reset_probes
  nodes _ _ := reset_nodes
  figures _ := reset_figures
  queue _ := reset_queue

theorem tablesFollow_admitFrame (f : KilnFrame) (s : State) : TablesFollow s (admitFrame f s) := by
  unfold admitFrame
  split <;> exact .of_eq

theorem tablesFollow_kilnDelivered (f : Frame) (noisy : Bool) (s : State) :
    TablesFollow s (kilnDelivered f noisy s) := by
  unfold kilnDelivered
  split
  · exact tablesFollow_refl s
  · split
    · next cls _ _ =>
      have noted : ∀ g : KilnFrame, TablesFollow s (noteCompleted g s) := fun _ => .of_eq
      exact (noted _).trans (tablesFollow_admitFrame _ _)
    · exact tablesFollow_refl s

theorem tablesFollow_kilnEvent (e : AssemblerEvent) (s : State) : TablesFollow s (applyEvent .kiln e s) := by
  cases e with
  | quiet => exact tablesFollow_refl s
  | discarded r => exact .of_eq
  | delivered f noisy => exact tablesFollow_kilnDelivered f noisy s

theorem tablesFollow_kilnCharacter (c : RxChar) (s : State) : TablesFollow s (receiveCharacter .kiln c s) := by
  unfold receiveCharacter
  split
  · have taken : TablesFollow s (feedCharacter .kiln c (s.afterChar .kiln c)) :=
      TablesFollow.trans .of_eq (tablesFollow_kilnEvent _ _)
    refine taken.trans ?_
    unfold breakReport
    split <;> exact .of_eq
  · exact tablesFollow_refl s

theorem tablesFollow_receiveCharacter (l : Line) (c : RxChar) (s : State) :
    TablesFollow s (receiveCharacter l c s) := by
  cases l with
  | field => exact tablesFollow_of_outer (whole_receiveCharacter .field c s).toOuter
  | drive => exact tablesFollow_of_outer (whole_receiveCharacter .drive c s).toOuter
  | kiln => exact tablesFollow_kilnCharacter c s

theorem tablesFollow_receiveBreak (l : BreakLine) (s : State) : TablesFollow s (receiveBreak l s) := by
  unfold receiveBreak
  split
  · exact tablesFollow_receiveCharacter _ _ s
  · split
    · refine (tablesFollow_receiveCharacter .kiln breakChar s).trans ?_
      exact TablesFollow.trans .of_eq (tablesFollow_admitFrame _ _)
    · exact tablesFollow_refl s
  · exact tablesFollow_receiveCharacter _ _ s

theorem tablesFollow_gapExpired (l : Line) (s : State) : TablesFollow s (gapExpired l s) := by
  cases l with
  | field => exact tablesFollow_of_outer (whole_gapExpired .field s).toOuter
  | drive => exact tablesFollow_of_outer (whole_gapExpired .drive s).toOuter
  | kiln =>
    unfold gapExpired
    split
    · exact tablesFollow_refl s
    · exact .of_eq

theorem tablesFollow_minuteTick (s : State) : TablesFollow s (minuteTick s) :=
  TablesFollow.trans (t := uptimeTick s) .of_eq (tablesFollow_of_outer (minuteTick_sound s).1)

theorem tablesFollow_startTransmit (l : PairLine) (s : State) :
    TablesFollow s (startTransmit l (beforeTransmit l s)) := by
  refine TablesFollow.trans ?_ (tablesFollow_of_outer (whole_startTransmit l _).toOuter)
  cases l with
  | field => exact tablesFollow_refl s
  | drive => exact tablesFollow_of_outer (calm_openExchange s).toOuter

theorem tablesFollow_handOverReply (s : State) : TablesFollow s (handOverReply s) := by
  unfold handOverReply
  split <;> exact .of_eq

/-! ### The front frame taken and answered (R160) -/

theorem tablesFollow_placeReply (f : KilnFrame) (r : Reply) (s : State) : TablesFollow s (placeReply f r s) := by
  unfold placeReply
  split <;> exact .of_eq

/-- A frame taken and answered follows what the bodies carried out follow. -/
theorem tablesFollow_serveFront {accepts : KilnFrame → Bool} {body : KilnFrame → State → Answer}
    (h : ∀ f s x, body f s = .ok x → TablesFollow s x.state) (s : State) :
    TablesFollow s (serveFront accepts body s) := by
  unfold serveFront
  split
  · exact tablesFollow_refl s
  · next f rest _ =>
    split
    · refine TablesFollow.trans (t := s.setHandler (s.handler.taken rest)) .of_eq ?_
      dsimp only
      generalize s.setHandler (s.handler.taken rest) = t
      cases hb : body f t with
      | ok x => exact (h f t x hb).trans (tablesFollow_placeReply _ _ _)
      | error why => exact tablesFollow_placeReply _ _ _
    · exact tablesFollow_refl s

theorem tablesFollow_serveRequest {k : Byte} {body : List Byte → State → Answer} (h : BodyKept body) (s : State) :
    TablesFollow s (serveRequest k body s) :=
  tablesFollow_serveFront (fun f s x hx => tablesFollow_of_kept (h f.payload s x hx)) s

/-! ### Every command -/

theorem exec_tablesFollow (c : Instr) (s : State) : ∃ t, exec c s = .next t ∧ TablesFollow s t := by
  have request {k : Byte} {body : List Byte → State → Answer} (h : BodyKept body) :
      ∃ t, Host.Outcome.next (serveRequest k body s) = (.next t : Host.Outcome State Machine.Fault Refusal) ∧
        TablesFollow s t := ⟨_, rfl, tablesFollow_serveRequest h s⟩
  cases c with
  | powerUp straps levels => exact ⟨_, rfl, tablesFollow_powerUp straps levels s⟩
  | characterReceived l w =>
    show ∃ t, execCharacterReceived l w s = .next t ∧ _
    unfold execCharacterReceived
    split
    · exact ⟨_, rfl, tablesFollow_refl s⟩
    · exact ⟨_, rfl, tablesFollow_receiveCharacter l _ s⟩
  | breakCharacter l => exact ⟨_, rfl, tablesFollow_receiveBreak l s⟩
  | spacingSpellStart l =>
    show ∃ t, execSpacingSpellStart l s = .next t ∧ _
    unfold execSpacingSpellStart
    split
    · exact ⟨_, rfl, tablesFollow_refl s⟩
    · exact ⟨_, rfl, tablesFollow_of_outer (calm_setUnit l _ s).toOuter⟩
  | spacingSpellEnd l => exact ⟨_, rfl, tablesFollow_of_outer (calm_setUnit l _ s).toOuter⟩
  | gapLimitExpiry l => exact ⟨_, rfl, tablesFollow_gapExpired l s⟩
  | stuckLimitExpiry l order => exact ⟨_, rfl, tablesFollow_of_outer (plant_stuckExpired l order s).toOuter⟩
  | transmitStart l => exact ⟨_, rfl, tablesFollow_startTransmit l s⟩
  | transmitEnd l => exact ⟨_, rfl, tablesFollow_of_outer (calm_endTransmit l s).toOuter⟩
  | replyTransmitEnd => exact ⟨_, rfl, .of_eq⟩
  | replyHandover => exact ⟨_, rfl, tablesFollow_handOverReply s⟩
  | kilnLineMarkingReturn => exact ⟨_, rfl, .of_eq⟩
  | cycleTimerExpiry =>
    show ∃ t, execCycleTimerExpiry s = .next t ∧ _
    unfold execCycleTimerExpiry
    split
    · exact ⟨_, rfl, tablesFollow_refl s⟩
    · exact ⟨_, rfl, tablesFollow_of_outer (whole_cycleTimerExpired s).toOuter⟩
  | scanAnswerTimeout => exact ⟨_, rfl, tablesFollow_of_outer (whole_failWaiting .noAnswer s).toOuter⟩
  | drivePeriodExpiry => exact ⟨_, rfl, tablesFollow_of_outer (calm_drivePeriod s).toOuter⟩
  | driveAnswerTimeout => exact ⟨_, rfl, tablesFollow_of_outer (calm_noAnswer s).toOuter⟩
  | minuteTick => exact ⟨_, rfl, tablesFollow_minuteTick s⟩
  | stepLimit =>
    show ∃ t, execStepLimit s = .next t ∧ _
    unfold execStepLimit
    split
    · exact ⟨_, rfl, tablesFollow_minuteTick s⟩
    · exact ⟨_, rfl, tablesFollow_refl s⟩
  | fanReversal =>
    show ∃ t, execFanReversal s = .next t ∧ _
    unfold execFanReversal
    split
    · exact ⟨_, rfl, tablesFollow_minuteTick s⟩
    · exact ⟨_, rfl, tablesFollow_refl s⟩
  | zoneSet => exact ⟨_, rfl, tablesFollow_serveFront (fun f s x hx => tablesFollow_of_kept (kept_window f s x hx)) s⟩
  | unknownRequest => exact ⟨_, rfl, tablesFollow_serveFront (fun _ _ _ h => by cases h) s⟩
  | identify => exact request kept_identify
  | readLineStatus => exact request kept_readLineStatus
  | setConfig => exact request kept_setConfig
  | readConfig => exact request kept_readConfig
  | setAddressSlot => exact request kept_setAddressSlot
  | lineRestart => exact request kept_lineRestart
  | loadCurve => exact request kept_loadCurve
  | readCurve => exact request kept_readCurve
  | mapProbe => exact request kept_mapProbe
  | unmapProbes => exact request kept_unmapProbes
  | excludeProbes => exact request kept_excludeProbes
  | includeProbes => exact request kept_includeProbes
  | readProbe => exact request kept_readProbe
  | readNode => exact request kept_readNode
  | fieldStart => exact request kept_fieldStart
  | fieldHalt => exact request kept_fieldHalt
  | readEstimate => exact request kept_readEstimate
  | readRanking => exact request kept_readRanking
  | loadStep => exact request kept_loadStep
  | readStep => exact request kept_readStep
  | setStepCount => exact request kept_setStepCount
  | start => exact request kept_start
  | resume => exact request kept_resume
  | hold => exact request kept_hold
  | release => exact request kept_release
  | skip => exact request kept_skip
  | abort => exact request kept_abort
  | chargeReset => exact request kept_chargeReset
  | readSchedule => exact request kept_readSchedule
  | readHistory => exact request kept_readHistory
  | setEnvelope => exact request kept_setEnvelope
  | readEnvelope => exact request kept_readEnvelope
  | setZoneMode => exact request kept_setZoneMode
  | readZone => exact request kept_readZone
  | readFault => exact request kept_readFault
  | clearFaults => exact request kept_clearFaults
  | collectNotices => exact request kept_collectNotices

end Sys2Proof.ProbePolling
end

section
/-! CERTIFICATE. The power-up state meets every condition that the steps keep, and every step keeps the tables. -/

namespace Sys2Proof.ProbePolling

open Sys2Proof.Machine
open Sys2Proof.Safety

/-- Settles O2, condition by condition. -/
theorem resetSound : Obligations.ResetSound :=
  ⟨reset_intake, reset_notices, reset_faults, reset_causes, reset_schedule, reset_queue, reset_params, reset_curves,
    reset_probes, reset_figures, reset_nodes⟩

/-- Settles O60: an idle step changes nothing, and each command follows the tables (`exec_tablesFollow`). -/
theorem tablesKept : Obligations.TablesKept := by
  intro s t h
  have follow : TablesFollow s t := by
    unfold step at h
    split at h
    · cases h
      exact tablesFollow_refl s
    · next c rest _ =>
      obtain ⟨u, hu, follow⟩ := exec_tablesFollow c { s with pending := rest }
      obtain rfl : u = t := Host.Outcome.next.inj (hu.symm.trans h)
      exact TablesFollow.trans .of_eq follow
  exact ⟨follow.params, follow.curves, follow.probes, follow.nodes, follow.figures, follow.queue⟩

end Sys2Proof.ProbePolling
end

section
/-! SUPPORT. The poll cycle (R26 to R31, R37 to R41): which node is visited next, what an attempt begun leaves, a miss, a
failed attempt and the end of a visit, one equation for each case. -/

namespace Sys2Proof.ProbePolling

open Sys2Proof.Machine
open Sys2Proof.Safety
open Sys2Proof.Laws

/-! ### Searches over a table -/

theorem find_finRange {k : Nat} {p : Fin k → Bool} {n : Fin k} (h : p n = true) (least : ∀ m, m < n → p m = false) :
    (List.finRange k).find? p = some n := by
  rw [List.find?_eq_some_iff_getElem]
  refine ⟨h, n.val, by simp, by simp, fun j hj => ?_⟩
  have hj' : j < k := hj.trans n.isLt
  simpa using least ⟨j, hj'⟩ hj

theorem find_finRange_none {k : Nat} {p : Fin k → Bool} (h : ∀ n, p n = false) : (List.finRange k).find? p = none := by
  simp [List.find?_eq_none, h]

/-! ### The next node (R28) -/

theorem nodeDue_iff (c : Word16) (e : NodeEntry) :
    nodeDue c e = true ↔ e.state = .online ∨ (e.state = .absent ∧ c.toNat % 8 = 0) := by
  unfold nodeDue
  cases e.state <;> simp

theorem dueFrom_iff (s : State) {c : Word16} (hc : s.poller.currentCycle = some c) (n : Fin 16) :
    (decide (s.poller.visitPos ≤ n.val) && nodeDue (s.poller.currentCycle.getD 0) (s.node n)) = true ↔
      s.poller.visitPos ≤ n.val ∧ ((s.node n).state = .online ∨ ((s.node n).state = .absent ∧ c.toNat % 8 = 0)) := by
  rw [hc, Option.getD_some, Bool.and_eq_true, decide_eq_true_eq, nodeDue_iff]

theorem nextNode_some {s : State} {c : Word16} {n : Fin 16} (hc : s.poller.currentCycle = some c)
    (hn : s.poller.visitPos ≤ n.val ∧ ((s.node n).state = .online ∨ ((s.node n).state = .absent ∧ c.toNat % 8 = 0)))
    (least : ∀ m : Fin 16, m < n → ¬ (s.poller.visitPos ≤ m.val ∧
      ((s.node m).state = .online ∨ ((s.node m).state = .absent ∧ c.toNat % 8 = 0)))) : nextNode s = some n :=
  find_finRange ((dueFrom_iff s hc n).2 hn) fun m hm => by
    rw [Bool.eq_false_iff, ne_eq, dueFrom_iff s hc]
    exact least m hm

theorem nextNode_none {s : State} {c : Word16} (hc : s.poller.currentCycle = some c)
    (h : ∀ n : Fin 16, ¬ (s.poller.visitPos ≤ n.val ∧
      ((s.node n).state = .online ∨ ((s.node n).state = .absent ∧ c.toNat % 8 = 0)))) : nextNode s = none :=
  find_finRange_none fun n => by
    rw [Bool.eq_false_iff, ne_eq, dueFrom_iff s hc]
    exact h n

/-! ### An attempt on a line that is not in FAULT (R30) -/

theorem take_clear {u : PairUnit} (h : u.lineState.isFault = false) (f : Frame) :
    u.take f = { u with slot := .waiting f } := by
  simp [PairUnit.take, h]

theorem sendScan_clear {s : State} (h : s.field.lineState.isFault = false) (n : Fin 16) (retries : Nat) :
    sendScan n retries s = { s with
      poller := { s.poller with
        nextTag := s.poller.nextTag + 1
        staging := some (newStaging n retries s.poller.nextTag (s.node n).mask) }
      field := { s.field with slot := .waiting (scanFrame n s.poller.nextTag (s.node n).mask) } } := by
  simp [sendScan, h, beginAttempt, take_clear h]

theorem beginVisit_clear {s : State} (h : s.field.lineState.isFault = false) (n : Fin 16) :
    beginVisit n s = { s with
      poller := { s.poller with
        visitPos := n.val + 1, nextTag := s.poller.nextTag + 1
        staging := some (newStaging n 0 s.poller.nextTag (s.node n).mask) }
      field := { s.field with slot := .waiting (scanFrame n s.poller.nextTag (s.node n).mask) } } := by
  rw [beginVisit, sendScan_clear (by exact h)]
  rfl

/-! ### The start and the close of a cycle (R27, R29) -/

theorem startCycle_visits {s : State} {n : Fin 16}
    (h : nextNode { s with poller := s.poller.cycleStarted (s.param .cyclePeriod) } = some n) :
    startCycle s = beginVisit n { s with poller := s.poller.cycleStarted (s.param .cyclePeriod) } := by
  simp only [startCycle, h]

theorem startCycle_closes {s : State}
    (h : nextNode { s with poller := s.poller.cycleStarted (s.param .cyclePeriod) } = none) :
    startCycle s = pollIdle (closeEstimate { s with poller := s.poller.cycleStarted (s.param .cyclePeriod) }) := by
  simp only [startCycle, h]

/-- The close reads cycle due as it stood before the Estimate was formed. -/
theorem closeCycle_eq (s : State) :
    closeCycle s = if s.poller.cycleDue then startCycle (closeEstimate s) else pollIdle (closeEstimate s) := by
  rw [closeCycle, (scheduleOnly_closeEstimate s).poller]

/-! ### The end of a visit -/

theorem endVisit_visits {s : State} {n : Fin 16} (hp : s.poller.phase = .cycling)
    (h : nextNode (s.setStaging none) = some n) : endVisit s = beginVisit n (s.setStaging none) := by
  have phase : (s.setStaging none).poller.phase = .cycling := hp
  simp only [endVisit, phase, continueCycle, h]

theorem endVisit_closes {s : State} (hp : s.poller.phase = .cycling) (h : nextNode (s.setStaging none) = none) :
    endVisit s = closeCycle (s.setStaging none) := by
  have phase : (s.setStaging none).poller.phase = .cycling := hp
  simp only [endVisit, phase, continueCycle, h]

theorem endVisit_draining {s : State} (hp : s.poller.phase = .draining) : endVisit s = endDrain (s.setStaging none) := by
  have phase : (s.setStaging none).poller.phase = .draining := hp
  simp only [endVisit, phase]

/-! ### A miss (R38, R53) -/

theorem nodeMiss_below {s : State} {n : Fin 16} (hs : (s.node n).state = .online)
    (hm : min ((s.node n).misses + 1) 15 < s.param .missLimit) :
    nodeMiss n s = s.setNode n { s.node n with misses := min ((s.node n).misses + 1) 15 } := by
  simp only [nodeMiss, hs, rise, if_neg (Nat.not_le.2 hm)]

theorem nodeMiss_limit {s : State} {n : Fin 16} (hs : (s.node n).state = .online)
    (hm : s.param .missLimit ≤ min ((s.node n).misses + 1) 15) :
    nodeMiss n s = raiseFault (.node n) .nodeAbsent (some (min ((s.node n).misses + 1) 15 : Nat))
      (departNode n (s.setNode n { s.node n with misses := min ((s.node n).misses + 1) 15 })) := by
  simp only [nodeMiss, hs, rise, if_pos hm]

theorem nodeMiss_absent {s : State} {n : Fin 16} (hs : (s.node n).state = .absent) :
    nodeMiss n s = raiseFault (.node n) .nodeAbsent (some (min ((s.node n).misses + 1) 15 : Nat))
      (s.setNode n { s.node n with misses := min ((s.node n).misses + 1) 15 }) := by
  simp only [nodeMiss, hs, rise]

theorem onNode_iff (e : ProbeEntry) (n : Fin 16) : e.onNode n = true ↔ ∃ p, e.mapping = some p ∧ p.node = n := by
  simp [ProbeEntry.onNode, Option.any_eq_true]

theorem departed_of {e : ProbeEntry} (h : e.state = .settling ∨ e.state = .active ∨ e.state = .suspect) :
    e.departed = { e with state := .stale } := by
  unfold ProbeEntry.departed
  rcases h with h | h | h <;> simp only [h]

theorem departed_other {e : ProbeEntry} (h : ¬ (e.state = .settling ∨ e.state = .active ∨ e.state = .suspect)) :
    e.departed = e := by
  unfold ProbeEntry.departed
  cases hs : e.state <;> simp_all

theorem probe_departNode (n : Fin 16) (s : State) (i : Fin 192) :
    (departNode n s).probe i = if (s.probe i).onNode n then (s.probe i).departed else s.probe i := by
  simp only [departNode, nodeDeparted, State.probe, Fin.getElem_fin, Vector.getElem_map]
  rfl

theorem node_departNode (n : Fin 16) (s : State) : (departNode n s).node n = { s.node n with state := .absent } :=
  State.node_setNode s n _

theorem node_departNode_ne {n k : Fin 16} (h : k ≠ n) (s : State) : (departNode n s).node k = s.node k :=
  State.node_setNode_ne s n k _ (Ne.symm h)

/-! ### A failed attempt (R37, R39, R41) -/

theorem attemptFails_lost {st : Staging} (h : st.lost = true) (o : ScanOutcome) (s : State) :
    attemptFails st o s = endVisit s := by
  simp [attemptFails, h]

theorem attemptFails_draining {st : Staging} {s : State} (h : st.lost = false) (hp : s.poller.phase = .draining)
    (o : ScanOutcome) : attemptFails st o s = endVisit (s.setOutcome st.node o) := by
  simp [attemptFails, h, hp]

theorem attemptFails_retries {st : Staging} {s : State} (h : st.lost = false) (hp : s.poller.phase ≠ .draining)
    (hr : st.retries < s.param .retryLimit) (o : ScanOutcome) :
    attemptFails st o s = sendScan st.node (st.retries + 1) (s.setOutcome st.node o) := by
  have retry : st.retries < (s.setOutcome st.node o).param .retryLimit := hr
  simp [attemptFails, h, hp, retryOrMiss, retry]

theorem attemptFails_misses {st : Staging} {s : State} (h : st.lost = false) (hp : s.poller.phase ≠ .draining)
    (hr : s.param .retryLimit ≤ st.retries) (o : ScanOutcome) :
    attemptFails st o s = endVisit (nodeMiss st.node (s.setOutcome st.node o)) := by
  have spent : (s.setOutcome st.node o).param .retryLimit ≤ st.retries := hr
  simp [attemptFails, h, hp, retryOrMiss, Nat.not_lt.2 spent]

/-! ### FIELD_START and FIELD_HALT (R40, R41) -/

theorem fieldStartBody_payload {p : List Byte} (h : p ≠ []) (s : State) : fieldStartBody p s = .error .badLength := by
  cases p with
  | nil => exact absurd rfl h
  | cons => rfl

theorem fieldHaltBody_payload {p : List Byte} (h : p ≠ []) (s : State) : fieldHaltBody p s = .error .badLength := by
  cases p with
  | nil => exact absurd rfl h
  | cons => rfl

theorem fieldStartBody_halted {s : State} (h : s.field.lineState = .halted) :
    fieldStartBody [] s = doneFieldState (fieldStarted s) := by simp only [fieldStartBody, h]

theorem fieldStartBody_running {s : State} (h : s.field.lineState = .running) : fieldStartBody [] s = done s [1] := by
  simp only [fieldStartBody, h, doneFieldState]
  rfl

theorem fieldStartBody_fault {s : State} {back : ReturnState} (h : s.field.lineState = .fault back) :
    fieldStartBody [] s = .error .busy := by simp only [fieldStartBody, h]

theorem fieldStarted_idle {s : State} (h : s.poller.phase = .idle) :
    fieldStarted s = startCycle (s.setFieldState .running) := by
  have phase : (s.setFieldState .running).poller.phase = .idle := h
  simp only [fieldStarted, phase]

theorem fieldStarted_draining {s : State} (h : s.poller.phase = .draining) :
    fieldStarted s = { s.setFieldState .running with poller := { s.poller with cycleDue := true } } := by
  have phase : (s.setFieldState .running).poller.phase = .draining := h
  simp only [fieldStarted, phase]
  rw [← h]
  rfl

theorem fieldHaltBody_engaged {s : State} (h : s.sequencer.engaged = true) : fieldHaltBody [] s = .error .busy := by
  simp [fieldHaltBody, h]

theorem fieldHaltBody_running {s : State} (h : s.sequencer.engaged = false) (hl : s.field.lineState = .running) :
    fieldHaltBody [] s = done (fieldHalted s) [0] := by
  simp only [fieldHaltBody, h, hl, doneFieldState]
  rfl

theorem fieldHaltBody_halted {s : State} (h : s.sequencer.engaged = false) (hl : s.field.lineState = .halted) :
    fieldHaltBody [] s = done s [0] := by
  simp only [fieldHaltBody, h, hl, doneFieldState]
  rfl

theorem fieldHaltBody_fault {s : State} {back : ReturnState} (h : s.sequencer.engaged = false)
    (hl : s.field.lineState = .fault back) : fieldHaltBody [] s = done (s.setFieldState (.fault .halted)) [2] := by
  simp only [fieldHaltBody, h, hl, doneFieldState]
  rfl

theorem haltedPhase_idle {p : Poller} (h : p.phase = .idle) : haltedPhase p = .idle := by simp only [haltedPhase, h]

theorem haltedPhase_draining {p : Poller} (h : p.phase = .draining) : haltedPhase p = .draining := by
  simp only [haltedPhase, h]

theorem haltedPhase_cycling {p : Poller} (h : p.phase = .cycling) :
    haltedPhase p = if p.staging = none then .idle else .draining := by
  simp only [haltedPhase, h]
  cases p.staging <;> rfl

end Sys2Proof.ProbePolling
end

section
/-! CERTIFICATE. The cycle timer, a failed attempt and a miss, FIELD_START and FIELD_HALT. -/

namespace Sys2Proof.ProbePolling

open Sys2Proof.Machine
open Sys2Proof.Safety
open Sys2Proof.Laws

/-- Settles O13: a cycle start by the next node, and the expiry by the Poller's phase. -/
theorem cycleTimer : Obligations.CycleTimer := by
  refine ⟨?start, fun limit s hs => ?expiry, fun s hs => ?stopped⟩
  case start =>
    intro s due scanOf started
    have begun : s.poller.cycleStarted (s.param .cyclePeriod) = started := rfl
    have cycle : ({ s with poller := started } : State).poller.currentCycle = some s.poller.nextCycle := rfl
    refine ⟨fun n hn least hf => ?_, fun noneDue => ?_⟩
    · have next := nextNode_some cycle ⟨Nat.zero_le _, hn⟩ fun m hm h => least m hm h.2
      rw [startCycle_visits next, begun, beginVisit_clear (by exact hf)]
      rfl
    · rw [startCycle_closes (nextNode_none cycle fun n h => noneDue n h.2)]
      rfl
  case expiry =>
    have expires : exec .cycleTimerExpiry s = .next (cycleTimerExpired s) := by
      show execCycleTimerExpiry s = _
      simp only [execCycleTimerExpiry, hs]
    refine ⟨fun hp => ?_, fun hp => ?_, fun hp => ?_⟩ <;> rw [expires, cycleTimerExpired, hp]
  case stopped =>
    show execCycleTimerExpiry s = _
    simp only [execCycleTimerExpiry, hs]

/-- Settles O14: a miss by the node's state, a failed attempt, and the end of a visit by the next node due. -/
theorem scanTimeoutAndMiss : Obligations.ScanTimeoutAndMiss := by
  refine ⟨?miss, ?fails, ?visit, ?timeout⟩
  case miss =>
    intro n s m counted
    refine ⟨nodeMiss_below, nodeMiss_absent, fun hs hm =>
      ⟨departNode n counted, nodeMiss_limit hs hm, ?_, fun k hk => ?_, fun i => ?_, rfl, rfl, rfl, rfl, rfl, rfl, rfl⟩⟩
    · rw [node_departNode, State.node_setNode]
    · rw [node_departNode_ne hk, State.node_setNode_ne s n k _ (Ne.symm hk)]
    · rw [probe_departNode, show counted.probe i = s.probe i from rfl]
      simp only [onNode_iff]
      split
      · next on =>
        split
        · next h => exact departed_of h.2
        · next h => exact departed_other fun hs => h ⟨on, hs⟩
      · next off => rw [if_neg fun h => off h.1]
  case fails =>
    intro st o s t scan
    refine ⟨fun h => attemptFails_lost h o s, fun h hp => attemptFails_draining h hp o, fun h hp hr hf => ?_,
      fun h hp hr => attemptFails_misses h hp hr o⟩
    have mask : (t.node st.node).mask = (s.node st.node).mask := by rw [State.node_setNode]
    rw [attemptFails_retries h hp hr, show s.setOutcome st.node o = t from rfl, sendScan_clear (by exact hf), mask]
    rfl
  case visit =>
    intro c s hc t idled due
    have cycle : (s.setStaging none).poller.currentCycle = some c := hc
    refine ⟨fun n hp hn least hf => ?_, fun hp noneDue => ?_, fun hp => ?_⟩
    · rw [endVisit_visits hp (nextNode_some cycle hn least), beginVisit_clear (by exact hf)]
      rfl
    · rw [endVisit_closes hp (nextNode_none cycle noneDue), closeCycle_eq]
      rfl
    · rw [endVisit_draining hp]
      rfl
  case timeout =>
    intro s
    exact ⟨fun st hs hp => congrArg _ (LineFraming.failWaiting_waiting .noAnswer hs hp),
      fun h => congrArg _ (LineFraming.failWaiting_sending .noAnswer h)⟩

/-- Settles O41, by the line state and then by the Poller's phase. -/
theorem fieldStartHalt : Obligations.FieldStartHalt := by
  intro f rest s running halted
  have stopped {phase : PollPhase} (h : Asked s 0x53 f rest) (hp : f.payload = []) (he : s.sequencer.engaged = false)
      (hl : s.field.lineState = .running) (hh : haltedPhase s.poller = phase) :
      exec .fieldHalt s = .next (Answered s f rest [0] (halted phase)) := by
    subst hh
    exact congrArg _ (serveRequest_done (t := fieldHalted (Taken s rest)) h
      (by rw [hp]; exact fieldHaltBody_running he hl) rfl)
  refine ⟨fun h => ⟨fun hp => ?_, fun hp hl hi => ?_, fun hp hl hd => ?_, fun hp hl => ?_, fun back hp hl => ?_⟩,
    fun h => ⟨fun hp => ?_, fun hp he => ?_, fun hp he =>
      ⟨fun hl hi => ?_, fun hl hd => ?_, fun hl hc hs => ?_, fun hl hc hs => ?_, fun hl => ?_, fun back hl => ?_⟩⟩⟩
  · exact congrArg _ (serveRequest_refused h (fieldStartBody_payload hp _))
  · have started : fieldStarted (Taken s rest) = startCycle running := fieldStarted_idle hi
    have line : (startCycle running).field.lineState = .running := LineFraming.startCycle_lineState running
    refine congrArg _ (serveRequest_done h ?_ (whole_startCycle running).handler)
    rw [hp, fieldStartBody_halted (by exact hl), started, doneFieldState, line]
    rfl
  · have started : fieldStarted (Taken s rest) = { running with poller := { s.poller with cycleDue := true } } :=
      fieldStarted_draining hd
    refine congrArg _ (serveRequest_done (t := { running with poller := { s.poller with cycleDue := true } }) h ?_ rfl)
    rw [hp, fieldStartBody_halted (by exact hl), started]
    rfl
  · exact congrArg _ (serveRequest_read h (by rw [hp]; exact fieldStartBody_running hl))
  · exact congrArg _ (serveRequest_refused h (by rw [hp]; exact fieldStartBody_fault hl))
  · exact congrArg _ (serveRequest_refused h (fieldHaltBody_payload hp _))
  · exact congrArg _ (serveRequest_refused h (by rw [hp]; exact fieldHaltBody_engaged he))
  · exact stopped h hp he hl (haltedPhase_idle hi)
  · exact stopped h hp he hl (haltedPhase_draining hd)
  · exact stopped h hp he hl ((haltedPhase_cycling hc).trans (if_neg hs))
  · exact stopped h hp he hl ((haltedPhase_cycling hc).trans (if_pos hs))
  · exact congrArg _ (serveRequest_read h (by rw [hp]; exact fieldHaltBody_halted he hl))
  · exact congrArg _ (serveRequest_done (t := (Taken s rest).setFieldState (.fault .halted)) h
      (by rw [hp]; exact fieldHaltBody_fault he hl) rfl)

end Sys2Proof.ProbePolling
end

section
/-! SUPPORT. MAP_PROBE (R23, R24, R47, R48): its operands, the entry that holds a node and channel, and its body. -/

namespace Sys2Proof.ProbePolling

open Sys2Proof.Machine
open Sys2Proof.Safety
open Sys2Proof.Laws

theorem indexOf_eq_some {n : Nat} {b : Byte} {i : Fin n} : indexOf n b = some i ↔ b.toNat = i.val := by
  unfold indexOf
  split
  · simp [Fin.ext_iff]
  · next h => exact ⟨nofun, fun e => absurd (e ▸ i.isLt) h⟩

theorem indexOf_eq_none {n : Nat} {b : Byte} : indexOf n b = none ↔ n ≤ b.toNat := by
  unfold indexOf
  split
  · next h => simpa using h
  · next h => simpa using h

theorem mappingOf_eq_some {s : State} {n c z k : Byte} {m : Mapping} : mappingOf s n c z k = some m ↔
    n.toNat = m.node.val ∧ c.toNat = m.channel.val ∧ z.toNat = m.zone.val ∧ k.toNat = m.profile.val ∧
      s.curves[m.profile].loaded = true := by
  simp only [← indexOf_eq_some]
  unfold mappingOf
  split
  · next n c z k hn hc hz hk =>
    obtain ⟨n', c', z', k'⟩ := m
    simp only [hn, hc, hz, hk, Option.some.injEq]
    split
    · next loaded =>
      simp only [Option.some.injEq, Mapping.mk.injEq]
      refine ⟨fun ⟨h1, h2, h3, h4⟩ => ⟨h1, h2, h3, h4, h4 ▸ loaded⟩, fun ⟨h1, h2, h3, h4, _⟩ => ⟨h1, h2, h3, h4⟩⟩
    · next unloaded => exact ⟨nofun, fun ⟨_, _, _, h4, loaded⟩ => absurd (h4 ▸ loaded) unloaded⟩
  · next missing => exact ⟨nofun, fun ⟨h1, h2, h3, h4, _⟩ => absurd h4 (missing _ _ _ _ h1 h2 h3)⟩

/-- R47: an operand out of range, or a profile that is not loaded, gives no mapping. -/
theorem mappingOf_eq_none {s : State} {n c z k : Byte} (h : 15 < n.toNat ∨ 15 < c.toNat ∨ 7 < z.toNat ∨ 7 < k.toNat ∨
    ∃ j : Fin 8, k.toNat = j.val ∧ s.curves[j].loaded = false) : mappingOf s n c z k = none := by
  rw [Option.eq_none_iff_forall_ne_some]
  intro m hm
  obtain ⟨hn, hc, hz, hk, loaded⟩ := mappingOf_eq_some.1 hm
  rcases h with h | h | h | h | ⟨j, hj, unloaded⟩
  · omega
  · omega
  · omega
  · omega
  · obtain rfl : j = m.profile := Fin.ext (hj.symm.trans hk)
    rw [unloaded] at loaded
    cases loaded

theorem probeAt_isSome (s : State) (n c : Fin 16) : (probeAt s n c).isSome = true ↔
    ∃ (j : Fin 192) (o : Mapping), (s.probe j).isMapped = true ∧ (s.probe j).mapping = some o ∧ o.node = n ∧
      o.channel = c := by
  simp [probeAt, List.find?_isSome, Option.any_eq_true]

theorem mapProbeBody_badLength {p : List Byte} (h : p.length ≠ 5) (s : State) :
    mapProbeBody p s = .error .badLength := by
  match p, h with
  | [], _ | [_], _ | [_, _], _ | [_, _, _], _ | [_, _, _, _], _ => rfl
  | [_, _, _, _, _], h => exact absurd rfl h
  | _ :: _ :: _ :: _ :: _ :: _ :: _, _ => rfl

section

variable {s : State} {b n c z k : Byte}

theorem mapProbeBody_range (h : indexOf 192 b = none ∨ mappingOf s n c z k = none) :
    mapProbeBody [b, n, c, z, k] s = .error .range := by
  rcases h with h | h
  · simp only [mapProbeBody, h]
  · cases hb : indexOf 192 b <;> simp only [mapProbeBody, h, hb]

variable {i : Fin 192} {m : Mapping} (hi : indexOf 192 b = some i) (hm : mappingOf s n c z k = some m)

include hi hm

theorem mapProbeBody_busy (h : (s.probe i).isMapped = true) : mapProbeBody [b, n, c, z, k] s = .error .busy := by
  simp only [mapProbeBody, hi, hm, h, if_true]

theorem mapProbeBody_conflict (h : (s.probe i).isMapped = false) (taken : (probeAt s m.node m.channel).isSome = true) :
    mapProbeBody [b, n, c, z, k] s = .error .conflict := by
  simp only [mapProbeBody, hi, hm, h, taken, if_true, Bool.false_eq_true, if_false]

theorem mapProbeBody_maps (h : (s.probe i).isMapped = false) (free : (probeAt s m.node m.channel).isSome = false) :
    mapProbeBody [b, n, c, z, k] s = done (mapProbe i m s)
      (b1 i.val ++ b1 1 ++ b1 ((s.node m.node).gain m.channel).state.code) := by
  have entry : ((mapProbe i m s).probe i).state.code = 1 := by
    rw [show (mapProbe i m s).probe i = (s.setProbe i (mappedEntry m)).probe i from rfl, State.probe_setProbe]
    rfl
  have node : (mapProbe i m s).node m.node = (s.node m.node).gain m.channel := State.node_setNode _ _ _
  simp only [mapProbeBody, hi, hm, h, free, Bool.false_eq_true, if_false, entry, node]

end

end Sys2Proof.ProbePolling
end

section
/-! SUPPORT. A run of entries unmapped (R23, R24, R39, R49, R50): the node table after several channels are lost, and the
visit in flight. -/

namespace Sys2Proof.ProbePolling

open Sys2Proof.Machine
open Sys2Proof.Safety
open Sys2Proof.Laws

/-! ### A node that loses several channels -/

theorem foldl_maskWithout_bit (cs : List (Fin 16)) (mask : BitVec 16) (k : Fin 16) :
    (cs.foldl maskWithout mask).getLsbD k.val = true ↔ mask.getLsbD k.val = true ∧ k ∉ cs := by
  induction cs generalizing mask with
  | nil => simp
  | cons c cs ih =>
    rw [List.foldl_cons, ih, maskWithout_bit, List.mem_cons, not_or, and_assoc]

theorem foldl_maskWithout_eq_zero {cs : List (Fin 16)} {mask : BitVec 16} :
    cs.foldl maskWithout mask = 0 ↔ ∀ k : Fin 16, mask.getLsbD k.val = true → k ∈ cs := by
  constructor
  · intro h k hk
    by_contra hn
    have := (foldl_maskWithout_bit cs mask k).2 ⟨hk, hn⟩
    simp [h] at this
  · intro h
    refine BitVec.eq_of_getLsbD_eq fun k hk => ?_
    rw [Bool.eq_iff_iff, foldl_maskWithout_bit cs mask ⟨k, hk⟩]
    exact ⟨fun ⟨a, b⟩ => absurd (h _ a) b, fun a => by simp at a⟩

/-- R23, R24: after one loss or more, a node without a channel is VACANT, and any other has lost those channels alone. -/
theorem foldl_lose (e : NodeEntry) {cs : List (Fin 16)} (h : cs ≠ []) :
    cs.foldl NodeEntry.lose e =
      if cs.foldl maskWithout e.mask = 0 then nodeReset else { e with mask := cs.foldl maskWithout e.mask } := by
  induction cs using List.reverseRecOn with
  | nil => exact absurd rfl h
  | append_singleton cs c ih =>
    rw [List.foldl_append, List.foldl_append, List.foldl_cons, List.foldl_nil, List.foldl_cons, List.foldl_nil]
    by_cases hcs : cs = []
    · subst hcs
      rfl
    · rw [ih hcs]
      split
      · next h0 =>
        rw [h0, if_pos (by simp [maskWithout])]
        simp [NodeEntry.lose, nodeReset, maskWithout]
      · rfl

/-! ### The fold over the run -/

/-- The channels of a node that the entries of a run name, in their order. -/
def freedChannels (l : List (Fin 192)) (s : State) (n : Fin 16) : List (Fin 16) :=
  l.filterMap fun i => (s.probe i).mapping.bind fun m => if m.node = n then some m.channel else none

theorem mem_freedChannels {l : List (Fin 192)} {s : State} {n c : Fin 16} : c ∈ freedChannels l s n ↔
    ∃ (i : Fin 192) (m : Mapping), i ∈ l ∧ (s.probe i).mapping = some m ∧ m.node = n ∧ m.channel = c := by
  simp only [freedChannels, List.mem_filterMap, Option.bind_eq_some_iff, Option.ite_none_right_eq_some, Option.some.injEq]
  exact ⟨fun ⟨i, hi, m, hm, h⟩ => ⟨i, m, hi, hm, h⟩, fun ⟨i, m, hi, hm, h⟩ => ⟨i, hi, m, hm, h⟩⟩

/-- R39: the staging record after a node of it lost channels, its entry then `e`. -/
def markedFor (freed : List (Fin 16)) (e : NodeEntry) (st : Staging) : Staging :=
  { st with lost := st.lost || (!freed.isEmpty && e.state == .vacant) }

theorem markedFor_lost {freed : List (Fin 16)} {e : NodeEntry} {st : Staging} :
    (markedFor freed e st).lost = true ↔ st.lost = true ∨ (freed ≠ [] ∧ e.state = .vacant) := by
  simp [markedFor]

/-- From `s` to `t` the entries of the run `l` are unmapped and their nodes told. -/
structure Unmapped (l : List (Fin 192)) (s t : State) : Prop where
  rest    : t = { s with
    probes := t.probes, poller := { s.poller with nodes := t.poller.nodes, staging := t.poller.staging } }
  probes  : ∀ i, t.probe i = if i ∈ l then probeReset else s.probe i
  nodes   : ∀ n, t.node n = (freedChannels l s n).foldl NodeEntry.lose (s.node n)
  staging : t.poller.staging = s.poller.staging.map fun st => markedFor (freedChannels l s st.node) (t.node st.node) st

theorem markLost_eq (n : Fin 16) (s : State) : markLost n s = s.setStaging (s.poller.staging.map fun st =>
    { st with lost := st.lost || (st.node == n && (s.node n).state == .vacant) }) := by
  unfold markLost
  split
  · next st hs =>
    split
    · next h => simp [hs, h]
    · next h =>
      have stays : (st.node == n && (s.node n).state == .vacant) = false := by simpa using h
      rw [hs, Option.map_some, stays, Bool.or_false, ← hs]
      rfl
  · next hs =>
    rw [hs, Option.map_none, ← hs]
    rfl

theorem lose_vacant {e : NodeEntry} (h : e.state = .vacant) (c : Fin 16) : (e.lose c).state = .vacant := by
  unfold NodeEntry.lose
  split
  · rfl
  · exact h

theorem freedChannels_append (l : List (Fin 192)) (i : Fin 192) (s : State) (n : Fin 16) :
    freedChannels (l ++ [i]) s n = freedChannels l s n ++
      ((s.probe i).mapping.bind fun m => if m.node = n then some m.channel else none).toList := by
  rw [freedChannels, List.filterMap_append]
  cases h : (s.probe i).mapping.bind fun m => if m.node = n then some m.channel else none <;> simp [freedChannels, h]

theorem setProbe_run {l : List (Fin 192)} {i : Fin 192} {s t : State}
    (h : ∀ j, t.probe j = if j ∈ l then probeReset else s.probe j) (j : Fin 192) :
    (t.setProbe i probeReset).probe j = if j ∈ l ++ [i] then probeReset else s.probe j := by
  by_cases hj : i = j
  · subst hj
    simp
  · rw [State.probe_setProbe_ne t i j _ hj, h]
    simp [Ne.symm hj]

/-- An entry of the run without a mapping concerns no node. -/
theorem Unmapped.unnamed {l : List (Fin 192)} {s t : State} (h : Unmapped l s t) {i : Fin 192}
    (hi : (s.probe i).mapping = none) : Unmapped (l ++ [i]) s (t.setProbe i probeReset) where
  rest := by
    conv_lhs => rw [h.rest]
    rfl
  probes := setProbe_run h.probes
  nodes n := by
    rw [freedChannels_append, hi, Option.bind_none, Option.toList_none, List.append_nil]
    exact h.nodes n
  staging := by
    simp only [freedChannels_append, hi, Option.bind_none, Option.toList_none, List.append_nil]
    exact h.staging

/-- An entry of the run with a mapping: its node loses the channel. -/
theorem Unmapped.named {l : List (Fin 192)} {s t : State} (h : Unmapped l s t) {i : Fin 192} {m : Mapping}
    (hi : (s.probe i).mapping = some m) :
    Unmapped (l ++ [i]) s (nodeLoses m.node m.channel (t.setProbe i probeReset)) := by
  have freed (n : Fin 16) : freedChannels (l ++ [i]) s n =
      freedChannels l s n ++ if m.node = n then [m.channel] else [] := by
    rw [freedChannels_append, hi, Option.bind_some]
    split <;> rfl
  have node (n : Fin 16) : (nodeLoses m.node m.channel (t.setProbe i probeReset)).node n =
      if m.node = n then (t.node n).lose m.channel else t.node n := by
    rw [nodeLoses, markLost_eq]
    show ((t.setProbe i probeReset).setNode m.node ((t.node m.node).lose m.channel)).node n = _
    split
    · next hn =>
      subst hn
      exact State.node_setNode _ _ _
    · next hn => exact State.node_setNode_ne _ _ _ _ hn
  refine ⟨?_, fun j => ?_, fun n => ?_, ?_⟩
  · rw [nodeLoses, markLost_eq]
    conv_lhs => rw [h.rest]
    rfl
  · rw [← setProbe_run h.probes j, nodeLoses, markLost_eq]
    rfl
  · rw [node, freed, List.foldl_append, ← h.nodes]
    split <;> rfl
  · have marked : (nodeLoses m.node m.channel (t.setProbe i probeReset)).poller.staging = t.poller.staging.map fun st =>
        { st with lost := st.lost || (st.node == m.node && ((t.node m.node).lose m.channel).state == .vacant) } := by
      rw [nodeLoses, markLost_eq]
      show Option.map _ t.poller.staging = _
      rw [State.node_setNode]
      rfl
    rw [marked, h.staging, Option.map_map]
    congr 1
    funext st
    simp only [Function.comp, markedFor, freed, node]
    by_cases hn : m.node = st.node
    · rw [hn]
      by_cases hv : (t.node st.node).state = .vacant
      · simp [hv, lose_vacant hv]
      · have occupied : ((t.node st.node).state == .vacant) = false := by simpa using hv
        have named : (freedChannels l s st.node ++ [m.channel]).isEmpty = false := by simp
        simp [occupied, named]
    · simp [hn, Ne.symm hn]

section

variable {l : List (Fin 192)} {s t : State} {n : Fin 16} (h : Unmapped l s t)

include h

theorem Unmapped.node_kept (unfreed : freedChannels l s n = []) : t.node n = s.node n := by
  rw [h.nodes, unfreed]
  rfl

theorem Unmapped.node_vacant (freed : freedChannels l s n ≠ [])
    (all : ∀ c : Fin 16, (s.node n).mask.getLsbD c.val = true → c ∈ freedChannels l s n) : t.node n = nodeReset := by
  rw [h.nodes, foldl_lose _ freed, if_pos (foldl_maskWithout_eq_zero.2 all)]

theorem Unmapped.node_loses (freed : freedChannels l s n ≠ []) {c : Fin 16}
    (on : (s.node n).mask.getLsbD c.val = true) (left : c ∉ freedChannels l s n) :
    ∃ mask : BitVec 16, t.node n = { s.node n with mask := mask } ∧
      ∀ k : Fin 16, mask.getLsbD k.val = true ↔ (s.node n).mask.getLsbD k.val = true ∧ k ∉ freedChannels l s n := by
  refine ⟨_, ?_, foldl_maskWithout_bit (freedChannels l s n) (s.node n).mask⟩
  rw [h.nodes, foldl_lose _ freed, if_neg fun h0 => left (foldl_maskWithout_eq_zero.1 h0 c on)]

end

theorem unmapped_foldl (l : List (Fin 192)) (hl : l.Nodup) (s : State) : Unmapped l s (l.foldl unmapProbe s) := by
  induction l using List.reverseRecOn with
  | nil =>
    refine ⟨rfl, fun i => by simp, fun n => rfl, ?_⟩
    show s.poller.staging = _
    cases s.poller.staging <;> simp [markedFor, freedChannels]
  | append_singleton l i ih =>
    obtain ⟨hl, _, apart⟩ := List.nodup_append.1 hl
    have before := ih hl
    have out : i ∉ l := fun hi => apart i hi i (by simp) rfl
    have entry : (l.foldl unmapProbe s).probe i = s.probe i := by rw [before.probes, if_neg out]
    rw [List.foldl_append, List.foldl_cons, List.foldl_nil, unmapProbe, entry]
    cases hi : (s.probe i).mapping with
    | none => exact before.unnamed hi
    | some m => exact before.named hi

end Sys2Proof.ProbePolling
end

section
/-! CERTIFICATE. MAP_PROBE and UNMAP_PROBES. -/

namespace Sys2Proof.ProbePolling

open Sys2Proof.Machine
open Sys2Proof.Safety
open Sys2Proof.Laws

/-- Settles O37: the checks of R47 in their order, then the entry and the node. -/
theorem mapProbe : Obligations.MapProbe := by
  intro f rest s h
  refine ⟨fun hp => congrArg _ (serveRequest_refused h (mapProbeBody_badLength hp _)), fun b n c z k hp =>
    ⟨fun out => ?range, fun i m hb hn hc hz hk loaded => ?inRange⟩⟩
  case range =>
    refine congrArg _ (serveRequest_refused (why := .range) h ?_)
    rw [hp]
    refine mapProbeBody_range (out.imp (fun hb => indexOf_eq_none.2 hb) fun out => ?_)
    exact mappingOf_eq_none out
  case inRange =>
    intro taken mask node
    have entry : indexOf 192 b = some i := indexOf_eq_some.2 hb
    have mapping : mappingOf (Taken s rest) n c z k = some m := mappingOf_eq_some.2 ⟨hn, hc, hz, hk, loaded⟩
    have held : (probeAt (Taken s rest) m.node m.channel).isSome = true ↔ taken := probeAt_isSome _ _ _
    refine ⟨fun hm => ?_, fun hm ht => ?_, fun hm ht => ?_⟩
    · exact congrArg _ (serveRequest_refused h (by rw [hp]; exact mapProbeBody_busy entry mapping hm))
    · exact congrArg _ (serveRequest_refused h (by
        rw [hp]; exact mapProbeBody_conflict entry mapping hm (held.2 ht)))
    · have number : b = BitVec.ofNat 8 i.val := by rw [← hb, BitVec.ofNat_toNat, BitVec.setWidth_eq]
      have gained : (s.node m.node).gain m.channel = node := rfl
      refine congrArg _ (serveRequest_done (t := Machine.mapProbe i m (Taken s rest)) h ?_ rfl)
      rw [hp, mapProbeBody_maps entry mapping hm (by rw [Bool.eq_false_iff, ne_eq, held]; exact ht), number]
      rfl

/-- Settles O38: the run folded (`unmapped_foldl`), read entry by entry and node by node. -/
theorem unmapProbes : Obligations.UnmapProbes := by
  intro f rest s h
  refine ⟨fun hp => congrArg _ (serveRequest_refused h (runBody_len hp)), fun p e hp =>
    ⟨fun out => ?range, fun hp1 he => ?run⟩⟩
  case range =>
    exact congrArg _ (serveRequest_refused (body := unmapProbesBody) h (by rw [hp]; exact runBody_range out))
  case run =>
    intro start hit frees
    let members := runMembers (Taken s rest) p.toNat e.toNat ProbeEntry.isMapped
    let t := members.foldl unmapProbe (Taken s rest)
    have mem (i : Fin 192) : i ∈ members ↔ hit i = true := by
      simp only [members, runMembers, List.mem_filter, List.mem_finRange, true_and]
      rfl
    have run : Unmapped members (Taken s rest) t := unmapped_foldl members (nodup_members _ _ _ _) _
    have freed (n c : Fin 16) : c ∈ freedChannels members (Taken s rest) n ↔ frees n c.val := by
      rw [mem_freedChannels]
      simp only [mem, frees, Fin.ext_iff (a := Mapping.channel _)]
      rfl
    have bounded {n : Fin 16} {c : Nat} : frees n c → c < 16 := by
      rintro ⟨i, m, _, _, _, rfl⟩
      exact m.channel.isLt
    have some_freed {n : Fin 16} : (∃ c, frees n c) ↔ freedChannels members (Taken s rest) n ≠ [] := by
      refine ⟨fun ⟨c, hc⟩ => List.ne_nil_of_mem ((freed n ⟨c, bounded hc⟩).2 hc), fun hn => ?_⟩
      obtain ⟨c, hc⟩ := List.exists_mem_of_ne_nil _ hn
      exact ⟨c.val, (freed n c).1 hc⟩
    refine ⟨t.probes, t.poller.nodes, t.poller.staging, ?_, fun i => ?_, fun n hn => ?_, fun n hn all => ?_,
      fun n hn left => ?_, fun hs => ?_, fun st hs => ?_⟩
    · have count : members.length = (List.finRange 192).countP hit := len_members _ _ _ _
      have rest' : t = { Taken s rest with
          probes := t.probes, poller := { s.poller with nodes := t.poller.nodes, staging := t.poller.staging } } :=
        run.rest
      have answer : exec .unmapProbes s =
          .next (Answered s f rest [BitVec.ofNat 8 ((List.finRange 192).countP hit)] t) :=
        congrArg _ (serveRequest_done h (by rw [hp, ← count]; exact runBody_ok hp1 he) (by rw [rest']))
      rw [answer]
      conv_lhs => rw [rest']
      rfl
    · refine (run.probes i).trans ?_
      simp only [mem]
      rfl
    · refine run.node_kept ?_
      by_contra hne
      obtain ⟨c, hc⟩ := some_freed.2 hne
      exact hn c hc
    · exact run.node_vacant (some_freed.1 hn) fun c hc => (freed n c).2 (all c.val c.isLt hc)
    · obtain ⟨c, hc, on, off⟩ := left
      obtain ⟨mask, entry, bits⟩ := run.node_loses (some_freed.1 hn) (c := ⟨c, hc⟩) on fun hf => off ((freed _ _).1 hf)
      exact ⟨mask, entry, fun k hk => (bits ⟨k, hk⟩).trans (and_congr_right' (not_congr (freed n ⟨k, hk⟩)))⟩
    · rw [run.staging, show (Taken s rest).poller.staging = none from hs, Option.map_none]
    · refine ⟨_, by rw [run.staging, show (Taken s rest).poller.staging = some st from hs, Option.map_some]; rfl, ?_⟩
      rw [some_freed]
      exact markedFor_lost

end Sys2Proof.ProbePolling
end

section
/-! SUPPORT. The bytes of READ_PROBE and READ_NODE (R44, R65), field by field. -/

namespace Sys2Proof.ProbePolling

open Sys2Proof.Machine
open Sys2Proof.Safety
open Sys2Proof.Laws

theorem ofNat_eq_of_toNat {b : Byte} {n : Nat} (h : b.toNat = n) : BitVec.ofNat 8 n = b := by
  rw [← h, BitVec.ofNat_toNat, BitVec.setWidth_eq]

/-! ### READ_PROBE -/

theorem stateByte_toNat (state : ProbeState) (manual : Bool) :
    (BitVec.ofNat 8 (state.code + 128 * manual.toNat)).toNat = state.code + if manual then 128 else 0 := by
  cases state <;> cases manual <;> rfl

theorem conversionByte_toNat (c : Conversion) :
    (BitVec.ofNat 8 (c.flag.code + 16 * c.source.code)).toNat = c.flag.code + 16 * c.source.code := by
  cases c.flag <;> cases c.source <;> rfl

/-- The fields of a probe entry stand at their offsets. -/
structure ProbeFields (d : List Byte) (n : Byte) (e : ProbeEntry) : Prop where
  length     : d.length = 24
  number     : byteAt d 0 = n
  state      : (byteAt d 1).toNat = e.state.code + if e.manual then 128 else 0
  node       : Holds1 d 2 (e.mapping.map (·.node.val))
  channel    : Holds1 d 3 (e.mapping.map (·.channel.val))
  zone       : Holds1 d 4 (e.mapping.map (·.zone.val))
  profile    : Holds1 d 5 (e.mapping.map (·.profile.val))
  code       : Holds2 d 6 (e.reading.map (·.code))
  status     : Holds1 d 8 (e.reading.map (·.status.code))
  corrected  : Holds2 d 9 (e.conversion.map (·.corrected))
  mc         : Holds2 d 11 (e.conversion.map (·.mc))
  unconverted : e.conversion = none → byteAt d 13 = 0
  converted  : ∀ c, e.conversion = some c → (byteAt d 13).toNat = c.flag.code + 16 * c.source.code
  filtered   : Holds2 d 14 e.filtered
  held       : Holds2 d 16 e.held
  progress   : Holds1 d 18 (some e.progress)
  streak     : Holds1 d 19 (some e.streak)
  reject     : Holds1 d 20 (e.lastReject.map (·.code))
  accepted   : Holds3 d 21 e.lastAccepted

theorem probeBytes_fields (i : Fin 192) (e : ProbeEntry) : ProbeFields (probeBytes i e) (BitVec.ofNat 8 i.val) e := by
  obtain ⟨_, node, hNode⟩ := opt1_holds (e.mapping.map (·.node.val))
  obtain ⟨_, channel, hChannel⟩ := opt1_holds (e.mapping.map (·.channel.val))
  obtain ⟨_, zone, hZone⟩ := opt1_holds (e.mapping.map (·.zone.val))
  obtain ⟨_, profile, hProfile⟩ := opt1_holds (e.mapping.map (·.profile.val))
  obtain ⟨_, _, code, hCode⟩ := opt2_holds (e.reading.map (·.code))
  obtain ⟨_, status, hStatus⟩ := opt1_holds (e.reading.map (·.status.code))
  obtain ⟨_, _, corrected, hCorrected⟩ := opt2_holds (e.conversion.map (·.corrected))
  obtain ⟨_, _, mc, hMc⟩ := opt2_holds (e.conversion.map (·.mc))
  obtain ⟨_, _, filtered, hFiltered⟩ := opt2_holds e.filtered
  obtain ⟨_, _, held, hHeld⟩ := opt2_holds e.held
  obtain ⟨_, progress, hProgress⟩ := b1_holds e.progress
  obtain ⟨_, streak, hStreak⟩ := b1_holds e.streak
  obtain ⟨_, reject, hReject⟩ := opt1_holds (e.lastReject.map (·.code))
  obtain ⟨_, _, _, accepted, hAccepted⟩ := opt3_holds e.lastAccepted
  unfold probeBytes
  rw [node, channel, zone, profile, code, status, corrected, mc, filtered, held, progress, streak, reject, accepted]
  simp only [b1, List.cons_append, List.nil_append]
  exact {
    length := rfl
    number := rfl
    state := stateByte_toNat e.state e.manual
    node := hNode _ _ rfl
    channel := hChannel _ _ rfl
    zone := hZone _ _ rfl
    profile := hProfile _ _ rfl
    code := hCode _ _ rfl rfl
    status := hStatus _ _ rfl
    corrected := hCorrected _ _ rfl rfl
    mc := hMc _ _ rfl rfl
    unconverted := fun h => by rw [h]; rfl
    converted := fun c h => by rw [h]; exact conversionByte_toNat c
    filtered := hFiltered _ _ rfl rfl
    held := hHeld _ _ rfl rfl
    progress := hProgress _ _ rfl
    streak := hStreak _ _ rfl
    reject := hReject _ _ rfl
    accepted := hAccepted _ _ rfl rfl rfl }

theorem readProbeBody_badLength {p : List Byte} (h : p.length ≠ 1) (s : State) :
    readProbeBody p s = .error .badLength := by
  match p, h with
  | [], _ => rfl
  | [_], h => exact absurd rfl h
  | _ :: _ :: _, _ => rfl

theorem readProbeBody_range {n : Byte} (h : 191 < n.toNat) (s : State) : readProbeBody [n] s = .error .range := by
  simp only [readProbeBody, indexOf_eq_none.2 h]

theorem readProbeBody_reads {n : Byte} {i : Fin 192} (h : n.toNat = i.val) (s : State) :
    readProbeBody [n] s = done s (probeBytes i (s.probe i)) := by
  simp only [readProbeBody, indexOf_eq_some.2 h]

/-! ### READ_NODE -/

theorem nodeTempBytes_holds (x : Option NodeTemp) : ∃ a b c, nodeTempBytes x = [a, b, c] ∧ ∀ p k, byteAt p k = a →
    byteAt p (k + 1) = b → byteAt p (k + 2) = c →
    HoldsTemp p k (x.map (·.value)) ∧ Holds1 p (k + 2) (x.map fun t => if t.fault then 1 else 0) := by
  cases x with
  | none => exact ⟨_, _, _, rfl, fun p k h1 h2 h3 => ⟨⟨h1, h2⟩, h3⟩⟩
  | some t =>
    obtain ⟨a, b, value, hValue⟩ := i2_holds t.value
    obtain ⟨c, status, hStatus⟩ := b1_holds t.fault.toNat
    refine ⟨a, b, c, by rw [nodeTempBytes, value, flag1, status]; rfl, fun p k h1 h2 h3 => ⟨hValue p k h1 h2, ?_⟩⟩
    have held := hStatus p (k + 2) h3
    cases hf : t.fault <;> simpa [hf] using held

theorem flag1_holds (b : Bool) : ∃ a, flag1 b = [a] ∧ ∀ p k, byteAt p k = a → Holds1 p k (some (if b then 1 else 0)) := by
  cases b <;> exact b1_holds _

/-- The fields of a node entry and of the Poller stand at their offsets. -/
structure NodeFields (d : List Byte) (n : Fin 16) (e : NodeEntry) (p : Poller) : Prop where
  length   : d.length = 18
  number   : byteAt d 0 = BitVec.ofNat 8 n.val
  state    : (byteAt d 1).toNat = e.state.code
  mask     : byteAt d 2 ++ byteAt d 3 = e.mask
  misses   : Holds1 d 4 (some e.misses)
  marginal : Holds1 d 5 (some e.marginal)
  temp     : HoldsTemp d 6 (e.lastTemp.map (·.value))
  status   : Holds1 d 8 (e.lastTemp.map fun t => if t.fault then 1 else 0)
  minute   : Holds3 d 9 e.lastScanMinute
  outcome  : (byteAt d 12).toNat = e.lastOutcome.code
  phase    : (byteAt d 13).toNat = p.phase.code
  cycling  : Holds1 d 14 (some (if p.currentCycle.isSome then 1 else 0))
  cycle    : Holds2 d 15 (p.currentCycle.map (·.toNat))
  visited  : Holds1 d 17 (some (if p.staging.any (·.node == n) then 1 else 0))

theorem nodeBytes_fields (n : Fin 16) (s : State) : NodeFields (nodeBytes n s) n (s.node n) s.poller := by
  obtain ⟨_, _, mask, hMask⟩ := w2_holds (s.node n).mask
  obtain ⟨_, misses, hMisses⟩ := b1_holds (s.node n).misses
  obtain ⟨_, marginal, hMarginal⟩ := b1_holds (s.node n).marginal
  obtain ⟨_, _, _, temp, hTemp⟩ := nodeTempBytes_holds (s.node n).lastTemp
  obtain ⟨_, _, _, minute, hMinute⟩ := opt3_holds (s.node n).lastScanMinute
  obtain ⟨_, cycling, hCycling⟩ := flag1_holds s.poller.currentCycle.isSome
  obtain ⟨_, _, cycle, hCycle⟩ := optWord_holds s.poller.currentCycle
  obtain ⟨_, visited, hVisited⟩ := flag1_holds (s.poller.staging.any (·.node == n))
  unfold nodeBytes
  dsimp only
  rw [mask, misses, marginal, temp, minute, cycling, cycle, visited]
  simp only [b1, List.cons_append, List.nil_append]
  exact {
    length := rfl
    number := rfl
    state := by
      show (BitVec.ofNat 8 (s.node n).state.code).toNat = _
      cases (s.node n).state <;> rfl
    mask := (hMask _ _ rfl rfl).2
    misses := hMisses _ _ rfl
    marginal := hMarginal _ _ rfl
    temp := (hTemp _ _ rfl rfl rfl).1
    status := (hTemp _ _ rfl rfl rfl).2
    minute := hMinute _ _ rfl rfl rfl
    outcome := by
      show (BitVec.ofNat 8 (s.node n).lastOutcome.code).toNat = _
      cases (s.node n).lastOutcome <;> rfl
    phase := by
      show (BitVec.ofNat 8 s.poller.phase.code).toNat = _
      cases s.poller.phase <;> rfl
    cycling := hCycling _ _ rfl
    cycle := hCycle _ _ rfl rfl
    visited := hVisited _ _ rfl }

theorem readNodeBody_badLength {p : List Byte} (h : p.length ≠ 1) (s : State) : readNodeBody p s = .error .badLength := by
  match p, h with
  | [], _ => rfl
  | [_], h => exact absurd rfl h
  | _ :: _ :: _, _ => rfl

theorem readNodeBody_range {b : Byte} (h : 15 < b.toNat) (s : State) : readNodeBody [b] s = .error .range := by
  simp only [readNodeBody, indexOf_eq_none.2 h]

theorem readNodeBody_reads {b : Byte} {n : Fin 16} (h : b.toNat = n.val) (s : State) :
    readNodeBody [b] s = done s (nodeBytes n s) := by
  simp only [readNodeBody, indexOf_eq_some.2 h]

/-! ### CHARGE_RESET -/

theorem chargeResetBody_payload {p : List Byte} (h : p ≠ []) (s : State) : chargeResetBody p s = .error .badLength := by
  cases p with
  | nil => exact absurd rfl h
  | cons => rfl

theorem chargeResetBody_engaged {s : State} (h : s.sequencer.engaged = true) : chargeResetBody [] s = .error .busy := by
  simp [chargeResetBody, h]

theorem chargeResetBody_done {s : State} (h : s.sequencer.engaged = false) :
    chargeResetBody [] s = done (Machine.chargeReset s) (stateByte (Machine.chargeReset s)) := by
  simp [chargeResetBody, h]

theorem chargeReset_entry (e : ProbeEntry) : e.chargeReset =
    if e.state = .unmapped ∨ (e.state = .excluded ∧ e.manual = true) then e else e.resettled := by
  unfold ProbeEntry.chargeReset
  cases hs : e.state <;> simp

/-- The schedule state is the reset one whether or not it is told to the zones. -/
theorem chargeReset_sequencer (s : State) : (Machine.chargeReset s).sequencer = s.sequencer.chargeReset := by
  unfold Machine.chargeReset
  dsimp only
  split
  · rfl
  · rw [(calm_tellZones _).sequencer, (calm_scheduleNotice _).sequencer]
    rfl

end Sys2Proof.ProbePolling
end

section
/-! CERTIFICATE. READ_PROBE, READ_NODE and CHARGE_RESET. -/

namespace Sys2Proof.ProbePolling

open Sys2Proof.Machine
open Sys2Proof.Safety
open Sys2Proof.Laws

/-- Settles O40: the bytes of `probeBytes_fields` and `nodeBytes_fields`. -/
theorem readProbeAndNode : Obligations.ReadProbeAndNode := by
  refine ⟨⟨rfl, rfl, rfl, rfl, rfl, fun f rest s h => ⟨fun hp => ?_, fun n hp => ⟨fun hn => ?_, fun i hn => ?_⟩⟩⟩,
    ⟨rfl, rfl, rfl, fun f rest s h => ⟨fun hp => ?_, fun b hp => ⟨fun hb => ?_, fun n hb => ?_⟩⟩⟩⟩
  · exact congrArg _ (serveRequest_refused h (readProbeBody_badLength hp _))
  · exact congrArg _ (serveRequest_refused h (by rw [hp]; exact readProbeBody_range hn _))
  · have fields := probeBytes_fields i (s.probe i)
    rw [ofNat_eq_of_toNat hn] at fields
    exact ⟨probeBytes i (s.probe i), congrArg _ (serveRequest_read h (by rw [hp]; exact readProbeBody_reads hn _)),
      fields.length, fields.number, fields.state, fields.node, fields.channel, fields.zone, fields.profile, fields.code, fields.status,
      fields.corrected, fields.mc, fields.unconverted, fields.converted, fields.filtered, fields.held, fields.progress,
      fields.streak, fields.reject, fields.accepted⟩
  · exact congrArg _ (serveRequest_refused h (readNodeBody_badLength hp _))
  · exact congrArg _ (serveRequest_refused h (by rw [hp]; exact readNodeBody_range hb _))
  · have fields := nodeBytes_fields n s
    have cycling : (if s.poller.currentCycle = none then 0 else 1) = if s.poller.currentCycle.isSome then 1 else 0 := by
      cases s.poller.currentCycle <;> rfl
    have visited : (s.poller.staging.any (·.node == n)) = true ↔ ∃ st, s.poller.staging = some st ∧ st.node = n := by
      simp [Option.any_eq_true]
    refine ⟨nodeBytes n s, congrArg _ (serveRequest_read h (by rw [hp]; exact readNodeBody_reads hb _)), fields.length,
      fields.number.trans (ofNat_eq_of_toNat hb), fields.state, fields.mask, fields.misses, fields.marginal, fields.temp,
      fields.status, fields.minute, fields.outcome, fields.phase, ?_, fields.cycle, ?_⟩
    · rw [cycling]
      exact fields.cycling
    · simp only [← visited]
      exact fields.visited

/-- Settles O48: the values of `chargeResetValues`, and the report where the schedule state changes. -/
theorem chargeReset : Obligations.ChargeReset := by
  intro f rest s h
  refine ⟨fun hp => ?_, fun hp he => ?_, fun hp he => ?_⟩
  · exact congrArg _ (serveRequest_refused h (chargeResetBody_payload hp _))
  · exact congrArg _ (serveRequest_refused h (by rw [hp]; exact chargeResetBody_engaged he))
  · intro state
    let u := chargeResetValues (Taken s rest)
    have reset : Machine.chargeReset (Taken s rest) =
        if s.sequencer.state = state then u else tellZones (raiseNotice .scheduleState state.code (some 0) none u) := by
      rw [Machine.chargeReset]
      exact if_congr eq_comm rfl rfl
    refine ⟨u, fun i => ?_, fun n => ?_, fun z => ?_, ?_, ?_⟩
    · have entry : u.probe i = (s.probe i).chargeReset := Vector.getElem_map _ i.isLt
      rw [entry, chargeReset_entry]
      rfl
    · exact Vector.getElem_map _ n.isLt
    · exact Vector.getElem_map _ z.isLt
    · rfl
    · rw [← reset]
      refine congrArg _ (serveRequest_done h ?_ (whole_chargeReset _).handler)
      rw [hp, chargeResetBody_done (by exact he), Machine.stateByte, chargeReset_sequencer]
      rfl

end Sys2Proof.ProbePolling
end

section
/-! SUPPORT. A SAMPLE screened (R32): the part its payload carries, and what each screen does with it. -/

namespace Sys2Proof.ProbePolling

open Sys2Proof.Machine
open Sys2Proof.Safety
open Sys2Proof.Laws

/-! ### The part of a payload -/

theorem sampleLengthOk_iff (n : Nat) : sampleLengthOk n = true ↔ n = 4 ∨ n = 7 ∨ n = 10 ∨ n = 13 ∨ n = 16 := by
  simp only [sampleLengthOk, Bool.and_eq_true, decide_eq_true_eq, beq_iff_eq]
  omega

theorem s16_eq_append (a b : Byte) : s16 a b = (a ++ b).toInt := by
  have halves := s16_halves (a ++ b)
  rwa [LineFraming.highByte_append, LineFraming.lowByte_append] at halves

theorem sampleTemp_eq (p : List Byte) : sampleTemp p =
    { value := if (byteAt p 2 ++ byteAt p 3).toInt < -400 then -400
        else if 1500 < (byteAt p 2 ++ byteAt p 3).toInt then 1500 else (byteAt p 2 ++ byteAt p 3).toInt
      fault := (byteAt p 1).getLsbD 6 } := by
  rw [← s16_eq_append]
  rfl

theorem sampleEntry_eq (p : List Byte) (j : Nat) : sampleEntry p j =
    { channel := (byteAt p (4 + 3 * j)).toNat
      code := ((byteAt p (5 + 3 * j)).toNat * 256 + (byteAt p (6 + 3 * j)).toNat) % 4096
      status := ChannelStatus.ofCode ((byteAt p (5 + 3 * j)).toNat / 64) } := by
  have low := (byteAt p (6 + 3 * j)).isLt
  have status : u16At p (5 + 3 * j) / 16384 = (byteAt p (5 + 3 * j)).toNat / 64 := by
    rw [u16At, u16, show 5 + 3 * j + 1 = 6 + 3 * j by omega]
    omega
  rw [sampleEntry, status, u16At, u16, show 5 + 3 * j + 1 = 6 + 3 * j by omega]

/-! ### The screens -/

theorem fieldDelivered_none {s : State} (h : s.poller.staging = none) (f : Frame) (noisy : Bool) :
    fieldDelivered f noisy s = s := by simp only [fieldDelivered, h]

theorem fieldDelivered_other {s : State} {st : Staging} {f : Frame} (hs : s.poller.staging = some st)
    (h : ¬ (st.phase = .waiting ∧ f.address = 0x40 + BitVec.ofNat 8 st.node.val ∧ f.kind = 0x22)) (noisy : Bool) :
    fieldDelivered f noisy s = s := by
  simp only [fieldDelivered, hs]
  split
  · rfl
  · next hp =>
    have waiting : st.phase = .waiting := by cases h : st.phase <;> simp_all
    split
    · rfl
    · next ha =>
      split
      · rfl
      · next hk => exact absurd ⟨waiting, not_not.1 ha, not_not.1 hk⟩ h

theorem fieldDelivered_mine {s : State} {st : Staging} {f : Frame} (hs : s.poller.staging = some st)
    (h : st.phase = .waiting ∧ f.address = 0x40 + BitVec.ofNat 8 st.node.val ∧ f.kind = 0x22) (noisy : Bool) :
    fieldDelivered f noisy s = screenSample st f.payload noisy s := by
  obtain ⟨hp, ha, hk⟩ := h
  simp only [fieldDelivered, hs, hp, ha, hk, Config.nodeBase, kindSample, ne_eq, not_true_eq_false, if_false,
    reduceCtorEq]

theorem screenSample_otherTag {st : Staging} {p : List Byte} (hp : p ≠ []) (h : byteAt p 0 ≠ st.tag) (noisy : Bool)
    (s : State) : screenSample st p noisy s = s := by
  cases p with
  | nil => exact absurd rfl hp
  | cons tag p => exact if_pos h

theorem screenSample_tagged {st : Staging} {p : List Byte} (hp : p ≠ []) (h : byteAt p 0 = st.tag) (noisy : Bool)
    (s : State) : screenSample st p noisy s =
      if sampleLengthOk p.length then takePart st (samplePart p) noisy s else attemptFails st .corrupt s := by
  cases p with
  | nil => exact absurd rfl hp
  | cons tag p => exact if_neg (not_not.2 h)

theorem takePart_duplicate {st : Staging} {p : SamplePart} (h : p.index < st.nextPart) (noisy : Bool) (s : State) :
    takePart st p noisy s = s.setStaging (some { st with timeout := .running (s.param .scanAnswerTimeout) }) :=
  if_pos h

theorem takePart_tooFar {st : Staging} {p : SamplePart} (h : st.nextPart < p.index) (noisy : Bool) (s : State) :
    takePart st p noisy s = attemptFails st .outOfOrder s :=
  (if_neg (Nat.lt_asymm h)).trans (if_pos h)

theorem takePart_expected {st : Staging} {p : SamplePart} (h : p.index = st.nextPart) (noisy : Bool) (s : State) :
    takePart st p noisy s =
      if p.last then commitCheck (st.withPart p noisy (s.param .scanAnswerTimeout))
        (s.setStaging (some (st.withPart p noisy (s.param .scanAnswerTimeout))))
      else s.setStaging (some (st.withPart p noisy (s.param .scanAnswerTimeout))) :=
  (if_neg h.not_lt).trans (if_neg h.not_gt)

theorem commitCheck_incomplete {st : Staging} (h : scanWhole st.mask st.entries = false) (s : State) :
    commitCheck st s = attemptFails st .incomplete s := by
  simp [commitCheck, h]

theorem commitCheck_lost {st : Staging} (h : scanWhole st.mask st.entries = true) (lost : st.lost = true) (s : State) :
    commitCheck st s = endVisit s := by
  simp [commitCheck, h, lost]

theorem commitCheck_commits {st : Staging} (h : scanWhole st.mask st.entries = true) (kept : st.lost = false)
    (s : State) : commitCheck st s = endVisit (commitScan st s) := by
  simp [commitCheck, h, kept]

end Sys2Proof.ProbePolling
end

section
/-! SUPPORT. A committed scan (R33 to R36, R53): the commit check, the node, the probes that return, and the entries
handed handed. -/

namespace Sys2Proof.ProbePolling

open Sys2Proof.Machine
open Sys2Proof.Safety
open Sys2Proof.Laws

/-! ### The commit check (R33) -/

open Finset in
theorem card_index_eq_countP {α : Type} (p : α → Bool) (l : List α) :
    #{j : Fin l.length | p l[j] = true} = l.countP p := by
  induction l with
  | nil => rfl
  | cons a l ih =>
    rw [List.countP_cons, ← ih]
    refine (Fin.card_filter_univ_succ _).trans ?_
    by_cases h : p a = true
    · simp [h, add_comm]
    · simp [h]

theorem countP_eq_one_iff {α : Type} (p : α → Bool) (l : List α) :
    l.countP p = 1 ↔ ∃! j : Fin l.length, p l[j] = true := by
  rw [Fintype.existsUnique_iff_card_one, card_index_eq_countP]

theorem scanWhole_iff (mask : BitVec 16) (es : List ChannelEntry) : scanWhole mask es = true ↔
    (∀ c < 16, mask.getLsbD c = true → ∃! j : Fin es.length, es[j].channel = c) ∧
      ∀ e ∈ es, e.channel < 16 ∧ mask.getLsbD e.channel = true := by
  have once (c : Nat) : timesNamed es c = 1 ↔ ∃! j : Fin es.length, es[j].channel = c := by
    rw [timesNamed, countP_eq_one_iff]
    simp only [beq_iff_eq]
  simp only [scanWhole, Bool.and_eq_true, List.all_eq_true, List.mem_range, Bool.or_eq_true, Bool.not_eq_true',
    decide_eq_true_eq, beq_iff_eq, once, ← Bool.not_eq_true, ← imp_iff_not_or]

/-! ### The node of a committed scan (R34 to R36) -/

theorem node_returnNode (n : Fin 16) (s : State) : (returnNode n s).node n =
    { s.node n with state := if (s.node n).state = .absent then .online else (s.node n).state } := by
  unfold returnNode
  split
  · exact State.node_setNode s n _
  · rfl

/-- A return writes its own node alone, and the entry is then written again. -/
theorem returnNode_setNode (n : Fin 16) (e e' : NodeEntry) (s : State) :
    (returnNode n (s.setNode n e)).setNode n e' = { s with
      poller := { s.poller with nodes := s.poller.nodes.set n e' }, probes := (returnNode n (s.setNode n e)).probes } := by
  unfold returnNode
  split
  · simp only [nodeReturned, State.setNode, Vector.set_set]
  · simp only [State.setNode, Vector.set_set]

theorem returned_of_stale {e : ProbeEntry} (h : e.state = .stale) : e.returned = e.resettled := if_pos h

theorem returned_other {e : ProbeEntry} (h : e.state ≠ .stale) : e.returned = e := if_neg h

/-- The probes that a node's return puts back into SETTLING. -/
theorem probe_returnNode (n : Fin 16) (s : State) (i : Fin 192) : (returnNode n s).probe i =
    if (s.node n).state = .absent ∧ (s.probe i).onNode n = true then (s.probe i).returned else s.probe i := by
  unfold returnNode
  by_cases h : (s.node n).state = .absent
  · simp only [h, if_true, true_and, nodeReturned, State.probe, Fin.getElem_fin, Vector.getElem_map]
    rfl
  · simp only [h, if_false, false_and]

/-- R34: the node entry a committed scan leaves. -/
def committedNode (st : Staging) (minute : Nat) (e : NodeEntry) : NodeEntry :=
  { e with
    lastTemp := st.temp, lastScanMinute := some minute, misses := 0, lastOutcome := .committed
    state := if e.state = .absent then .online else e.state
    marginal := if st.noisy then min (e.marginal + 1) 15 else 0 }

/-- R34, steps 1 and 2: the state that the marginal test is given. -/
def rejoinedState (st : Staging) (s : State) : State :=
  returnNode st.node (s.setNode st.node ((s.node st.node).committed st.temp s.uptime))

/-- R34, R35: the state in which the tests of a committed scan raise their faults. -/
def returnedState (st : Staging) (s : State) : State :=
  (rejoinedState st s).setNode st.node (committedNode st s.uptime (s.node st.node))

theorem returnedState_eq (st : Staging) (s : State) : returnedState st s = { s with
    poller := { s.poller with nodes := s.poller.nodes.set st.node (committedNode st s.uptime (s.node st.node)) }
    probes := (returnedState st s).probes } := returnNode_setNode _ _ _ s

theorem probe_returnedState (st : Staging) (s : State) (i : Fin 192) : (returnedState st s).probe i =
    if (s.node st.node).state = .absent ∧ (s.probe i).onNode st.node = true then (s.probe i).returned else s.probe i := by
  refine (probe_returnNode st.node _ i).trans ?_
  rw [State.node_setNode]
  rfl

theorem node_rejoinedState (st : Staging) (s : State) : (rejoinedState st s).node st.node =
    { s.node st.node with
      lastTemp := st.temp, lastScanMinute := some s.uptime, misses := 0, lastOutcome := .committed
      state := if (s.node st.node).state = .absent then .online else (s.node st.node).state } := by
  rw [rejoinedState, node_returnNode, State.node_setNode]
  rfl

theorem param_rejoinedState (st : Staging) (s : State) (p : Param) : (rejoinedState st s).param p = s.param p :=
  congrArg (fun params : Params => params[p.index]) (calm_returnNode st.node _).params

/-- R35: the marginal test leaves the committed node, and raises its fault at the limit. -/
theorem marginalTest_eq (st : Staging) (s : State) : marginalTest st.node st.noisy (rejoinedState st s) =
    if st.noisy = true ∧ s.param .marginalLimit ≤ min ((s.node st.node).marginal + 1) 15 then
      raiseFault (.node st.node) .nodeMarginal (some (min ((s.node st.node).marginal + 1) 15 : Nat)) (returnedState st s)
    else returnedState st s := by
  unfold marginalTest returnedState committedNode
  rw [node_rejoinedState]
  cases st.noisy with
  | true => simp only [if_true, true_and, param_rejoinedState, rise]
  | false => simp only [Bool.false_eq_true, if_false, false_and]

/-- R36: the temperature test by the staged temperature. -/
theorem temperatureTest_eq (n : Fin 16) (temp : Option NodeTemp) (s : State) : temperatureTest n temp s =
    match temp with
    | some { value := x, fault := true } => raiseFault (.node n) .nodeTempFault (some x) s
    | _ => s := by
  match temp with
  | none => rfl
  | some { value := x, fault := true } => rfl
  | some { value := x, fault := false } => rfl

/-! ### The entries handed over -/

/-- From `s` to `t` only probes of node `n`, fault records and notices differ, and no mapping does. -/
structure HandedOver (n : Fin 16) (s t : State) : Prop where
  rest    : t = { s with probes := t.probes, faults := t.faults, notices := t.notices }
  mapping : ∀ i : Fin 192, (t.probe i).mapping = (s.probe i).mapping
  others  : ∀ i : Fin 192, (∀ m, (s.probe i).mapping = some m → m.node ≠ n) → t.probe i = s.probe i

theorem HandedOver.refl (n : Fin 16) (s : State) : HandedOver n s s := ⟨rfl, fun _ => rfl, fun _ _ => rfl⟩

theorem HandedOver.trans {n : Fin 16} {s t u : State} (h : HandedOver n s t) (k : HandedOver n t u) :
    HandedOver n s u where
  rest := by
    rw [k.rest, h.rest]
  mapping i := (k.mapping i).trans (h.mapping i)
  others i hi := (k.others i (by rw [h.mapping]; exact hi)).trans (h.others i hi)

theorem handedOver_raiseFault (n : Fin 16) (source : FaultSource) (why : FaultReason) (d : Option Int) (s : State) :
    HandedOver n s (raiseFault source why d s) := by
  obtain ⟨f, q, h⟩ := faultsOnly_raiseFault source why d s
  rw [h]
  exact ⟨rfl, fun _ => rfl, fun _ _ => rfl⟩

theorem handedOver_foldl {α : Type} {f : State → α → State} {n : Fin 16} (h : ∀ s a, HandedOver n s (f s a))
    (l : List α) (s : State) : HandedOver n s (l.foldl f s) := by
  induction l generalizing s with
  | nil => exact HandedOver.refl n s
  | cons a l ih => exact (h s a).trans (ih _)

theorem handedOver_setProbe {n : Fin 16} {s : State} {p : Fin 192} {m : Mapping} {e : ProbeEntry}
    (hp : (s.probe p).mapping = some m) (hm : m.node = n) (he : e.mapping = (s.probe p).mapping) :
    HandedOver n s (s.setProbe p e) where
  rest := rfl
  mapping i := by
    by_cases hi : p = i
    · rw [← hi, State.probe_setProbe, he]
    · rw [State.probe_setProbe_ne s p i e hi]
  others i hi := State.probe_setProbe_ne s p i e fun e => hi m (e ▸ hp) hm

theorem takeReading_taken {s : State} {i : Fin 192} {m : Mapping} (hm : (s.probe i).mapping = some m)
    (h : (s.probe i).state.receives = true) (r : Reading) : takeReading i r s =
      raiseProbeFaults i ((s.probe i).takeReading s.judgeRules r (s.convert m r.code)).2
        (s.setProbe i ((s.probe i).takeReading s.judgeRules r (s.convert m r.code)).1) := by
  simp only [takeReading, hm, h, if_true]

theorem takeReading_dropped {s : State} {i : Fin 192}
    (h : (s.probe i).mapping = none ∨ (s.probe i).state.receives = false) (r : Reading) : takeReading i r s = s := by
  unfold takeReading
  split
  · rfl
  · next m hm =>
    rcases h with h | h
    · rw [h] at hm
      cases hm
    · rw [h]
      rfl

theorem receives_iff (state : ProbeState) : state.receives = true ↔
    state = .settling ∨ state = .active ∨ state = .suspect ∨ state = .excluded := by
  cases state <;> simp [ProbeState.receives]

theorem handedOver_takeReading {n : Fin 16} {s : State} {p : Fin 192} {m : Mapping} (hp : (s.probe p).mapping = some m)
    (hm : m.node = n) (r : Reading) : HandedOver n s (takeReading p r s) := by
  cases h : (s.probe p).state.receives with
  | true =>
    rw [takeReading_taken hp h]
    exact (handedOver_setProbe hp hm (judged_mapping _ _ _ _)).trans
      (handedOver_foldl (fun s f => handedOver_raiseFault n _ _ _ s) _ _)
  | false =>
    rw [takeReading_dropped (.inr h)]
    exact HandedOver.refl n s

theorem probeAt_some {s : State} {n c : Fin 16} {p : Fin 192} (h : probeAt s n c = some p) :
    ∃ m, (s.probe p).mapping = some m ∧ m.node = n ∧ m.channel = c := by
  have found := List.find?_some h
  simp only [Bool.and_eq_true, Option.any_eq_true, beq_iff_eq] at found
  exact found.2

theorem handedOver_handEntry (n c : Fin 16) (es : List ChannelEntry) (s : State) :
    HandedOver n s (handEntry n c es s) := by
  unfold handEntry
  split
  · next hp =>
    obtain ⟨m, hm, hn, -⟩ := probeAt_some hp
    exact handedOver_takeReading hm hn _
  · exact HandedOver.refl n s

/-- R34, step 4: the probe that a channel of a node goes to. -/
def HoldsChannel (s : State) (n c : Fin 16) (i : Fin 192) : Prop :=
  (s.probe i).isMapped = true ∧ ∃ m, (s.probe i).mapping = some m ∧ m.node = n ∧ m.channel = c

theorem holdsChannel_iff (s : State) (n c : Fin 16) (i : Fin 192) :
    ((s.probe i).isMapped && (s.probe i).mapping.any fun m => m.node == n && m.channel == c) = true ↔
      HoldsChannel s n c i := by
  simp [HoldsChannel, Option.any_eq_true]

theorem handEntry_dropped {s : State} {n c : Fin 16} {es : List ChannelEntry}
    (h : (∀ x ∈ es, x.channel ≠ c.val) ∨ ∀ i, ¬ HoldsChannel s n c i) : handEntry n c es s = s := by
  rcases h with h | h
  · have unnamed : es.find? (·.channel == c.val) = none := by simpa [List.find?_eq_none] using h
    simp only [handEntry, unnamed]
  · have unheld : probeAt s n c = none := find_finRange_none fun i => by
      rw [Bool.eq_false_iff, ne_eq, holdsChannel_iff]
      exact h i
    cases hx : es.find? (·.channel == c.val) <;> simp only [handEntry, unheld, hx]

theorem handEntry_handed {s : State} {n c : Fin 16} {pre post : List ChannelEntry} {x : ChannelEntry} {i : Fin 192}
    (hx : x.channel = c.val) (first : ∀ y ∈ pre, y.channel ≠ c.val) (hi : HoldsChannel s n c i)
    (least : ∀ j, j < i → ¬ HoldsChannel s n c j) :
    handEntry n c (pre ++ x :: post) s = takeReading i { code := x.code, status := x.status } s := by
  have entry : (pre ++ x :: post).find? (·.channel == c.val) = some x := by
    rw [List.find?_append, List.find?_eq_none.2 (by simpa using first), Option.none_or,
      List.find?_cons_of_pos (by simpa using hx)]
  have probe : probeAt s n c = some i := find_finRange ((holdsChannel_iff s n c i).2 hi) fun j hj => by
    rw [Bool.eq_false_iff, ne_eq, holdsChannel_iff]
    exact least j hj
  simp only [handEntry, entry, probe]

/-! ### The whole of a committed scan -/

/-- R35, R36: the state in which the entries are handed handed. -/
def testedState (st : Staging) (s : State) : State :=
  temperatureTest st.node st.temp (marginalTest st.node st.noisy (rejoinedState st s))

theorem handedOver_temperatureTest (n : Fin 16) (temp : Option NodeTemp) (s : State) :
    HandedOver n s (temperatureTest n temp s) := by
  unfold temperatureTest
  split
  · split
    · exact handedOver_raiseFault n _ _ _ s
    · exact HandedOver.refl n s
  · exact HandedOver.refl n s

theorem handedOver_testedState (st : Staging) (s : State) :
    HandedOver st.node (returnedState st s) (testedState st s) := by
  refine HandedOver.trans ?_ (handedOver_temperatureTest st.node st.temp _)
  rw [marginalTest_eq]
  split
  · exact handedOver_raiseFault _ _ _ _ _
  · exact HandedOver.refl _ _

/-- After the node and its probes have returned, a committed scan hands readings over and raises faults. -/
theorem handedOver_commitScan (st : Staging) (s : State) :
    HandedOver st.node (returnedState st s) (commitScan st s) :=
  (handedOver_testedState st s).trans
    (handedOver_foldl (fun s c => handedOver_handEntry st.node c st.entries s) (List.finRange 16) (testedState st s))

theorem HandedOver.node {n : Fin 16} {s t : State} (h : HandedOver n s t) (k : Fin 16) : t.node k = s.node k := by
  rw [h.rest]
  rfl

end Sys2Proof.ProbePolling
end

section
/-! CERTIFICATE. A frame screened, and a committed scan. -/

namespace Sys2Proof.ProbePolling

open Sys2Proof.Machine
open Sys2Proof.Safety
open Sys2Proof.Laws

/-- Settles O15, screen by screen in the order of R32. -/
theorem sampleScreened : Obligations.SampleScreened := by
  refine ⟨fun f noisy s h => fieldDelivered_none h f noisy, ?_⟩
  intro st p a k noisy s hs f limit index sized reported entries taken staged mine tagged
  have part : st.withPart (samplePart p) noisy (s.param .scanAnswerTimeout) = taken := by
    simp only [Staging.withPart, samplePart, sampleTemp_eq, sampleEntry_eq, taken, entries, reported, limit]
  have screened (h : mine) : fieldDelivered f noisy s = screenSample st p noisy s := fieldDelivered_mine hs h noisy
  have judged (h : tagged) (hl : sized) : fieldDelivered f noisy s = takePart st (samplePart p) noisy s := by
    obtain ⟨hm, hp, ht⟩ := h
    rw [screened hm, screenSample_tagged hp ht, if_pos ((sampleLengthOk_iff _).2 hl)]
  have expected (h : tagged) (hl : sized) (hi : index = st.nextPart) : fieldDelivered f noisy s =
      if (byteAt p 1).getLsbD 7 then commitCheck taken (staged taken) else staged taken := by
    rw [judged h hl, takePart_expected hi, part]
    rfl
  refine ⟨fun h => fieldDelivered_other hs h noisy, fun h hp => ?_, fun h hp ht => ?_, fun h hl => ?_,
    fun h hl hi => ?_, fun h hl hi => ?_, fun h hl hi => ⟨fun last => ?_, fun last part => ?_, fun last whole lost => ?_,
    fun last whole kept => ?_⟩⟩
  · rw [screened h, hp]
    rfl
  · rw [screened h, screenSample_otherTag hp ht]
  · obtain ⟨hm, hp, ht⟩ := h
    rw [screened hm, screenSample_tagged hp ht, if_neg fun ok => hl ((sampleLengthOk_iff _).1 ok)]
  · rw [judged h hl, takePart_duplicate hi]
    rfl
  · rw [judged h hl, takePart_tooFar hi]
  · rw [expected h hl hi, last]
    rfl
  · rw [expected h hl hi, last]
    exact commitCheck_incomplete (st := taken) part _
  · rw [expected h hl hi, last]
    exact commitCheck_lost (st := taken) whole lost _
  · rw [expected h hl hi, last]
    exact commitCheck_commits (st := taken) whole kept _

/-- Settles O16: the state of the tests, then the faults and the entries handed over, and what they leave alone. -/
theorem scanCommit : Obligations.ScanCommit := by
  refine ⟨scanWhole_iff, ?commit, ?entry, ?reading⟩
  case commit =>
    intro st s t e count node returns
    have handed : HandedOver st.node (returnedState st s) t := handedOver_commitScan st s
    have whole : t = { returnedState st s with probes := t.probes, faults := t.faults, notices := t.notices } := handed.rest
    have returned (i : Fin 192) (h : ¬ returns i) : (returnedState st s).probe i = s.probe i := by
      rw [probe_returnedState]
      split
      · next on => exact returned_other fun stale => h ⟨on.1, stale, (onNode_iff _ _).1 on.2⟩
      · rfl
    refine ⟨⟨returnedState st s, returnedState_eq st s, fun i => ⟨fun h => ?_, returned i⟩, ?_⟩, ?_, fun n hn => ?_,
      fun i hi => ?_, fun i => ?_, ?_⟩
    · obtain ⟨absent, stale, on⟩ := h
      rw [probe_returnedState, if_pos ⟨absent, (onNode_iff _ _).2 on⟩, returned_of_stale stale]
      rfl
    · refine congrArg (fun u => (List.finRange 16).foldl (fun v c => handEntry st.node c st.entries v) u)
        (?_ : testedState st s = _)
      exact (congrArg (temperatureTest st.node st.temp) (marginalTest_eq st s)).trans (temperatureTest_eq _ _ _)
    · rw [handed.node]
      exact State.node_setNode _ _ _
    · rw [handed.node, returnedState_eq]
      exact State.node_setNode_ne s st.node n _ (Ne.symm hn)
    · have before : (returnedState st s).probe i = s.probe i := returned i fun ⟨_, _, m, hm, on⟩ => hi m hm on
      rw [handed.others i (by rw [before]; exact hi), before]
    · obtain ⟨mapping, mapped, -⟩ := (calm_commitScan st s).maps i
      exact ⟨mapping, mapped⟩
    · have nodes : t.poller.nodes = s.poller.nodes.set st.node node := by
        rw [whole, returnedState_eq]
        rfl
      rw [nodes]
      conv_lhs => rw [whole, returnedState_eq]
      rfl
  case entry =>
    intro n c es s holds
    refine ⟨handEntry_dropped, fun pre post x i hes hx first hi least => ?_⟩
    rw [hes]
    exact handEntry_handed hx first hi least
  case reading =>
    intro i r s e takes
    refine ⟨fun m hm ht => takeReading_taken hm ((receives_iff _).2 ht) r, fun h => takeReading_dropped (h.imp_right ?_) r⟩
    intro out
    rw [Bool.eq_false_iff, ne_eq, receives_iff]
    exact out

end Sys2Proof.ProbePolling
end

section
/-! SUPPORT. Filter updates (R62): the quotient rounded on either side of zero, and the move of a figure towards a
reading. -/

namespace Sys2Proof.ProbeTable

open Sys2Proof.Machine
open Sys2Proof.Safety
open Sys2Proof.Laws

/-- Halves go away from zero on both sides. -/
theorem roundDiv_neg (n : Int) (d : Nat) : roundDiv (-n) d = -roundDiv n d := by
  rcases lt_trichotomy n 0 with h | rfl | h
  · rw [roundDiv, roundDiv, if_pos (by omega), if_neg (by omega), neg_neg]
  · have half : (d : Int) / (2 * d) = 0 := by
      rcases Nat.eq_zero_or_pos d with rfl | hd
      · rfl
      · exact Int.ediv_eq_zero_of_lt (by omega) (by omega)
    simp [roundDiv, half]
  · rw [roundDiv, roundDiv, if_neg (by omega), if_pos (by omega), neg_neg]

theorem roundDiv_sixteenth (n : Nat) : roundDiv n 16 = ((n + 8) / 16 : Nat) := by
  rw [roundDiv, if_pos (by omega)]
  omega

/-- R62: how far a figure moves towards a reading at distance `d`, with weight `k`. -/
def filterMove (d k : Nat) : Nat := max 1 ((d * k + 8) / 16)

theorem filterMove_pos (d k : Nat) : 0 < filterMove d k := Nat.lt_of_lt_of_le Nat.one_pos (Nat.le_max_left _ _)

theorem filterMove_le {d k : Nat} (hd : 0 < d) (hk : k ≤ 16) : filterMove d k ≤ d := by
  have weighted : d * k ≤ d * 16 := Nat.mul_le_mul_left d hk
  unfold filterMove
  omega

theorem filterMove_sixteen {d : Nat} (hd : 0 < d) : filterMove d 16 = d := by
  unfold filterMove
  omega

theorem filterMove_one {k : Nat} (hk : k ≤ 16) : filterMove 1 k = 1 :=
  Nat.le_antisymm (filterMove_le Nat.one_pos hk) (filterMove_pos 1 k)

theorem filterUpdate_self (f k : Nat) : filterUpdate f f k = f := by
  simp [filterUpdate, roundDiv]

theorem filterUpdate_up {f m : Nat} (h : f < m) (k : Nat) : filterUpdate f m k = f + filterMove (m - f) k := by
  have quotient : roundDiv (((m : Int) - f) * k) 16 = (((m - f) * k + 8) / 16 : Nat) := by
    rw [← Nat.cast_sub h.le, ← Nat.cast_mul, roundDiv_sixteenth]
  have sign : ((m : Int) - f).sign = 1 := Int.sign_eq_one_of_pos (by omega)
  simp only [filterUpdate, filterMove, quotient, sign]
  split <;> omega

theorem filterUpdate_down {f m : Nat} (h : m < f) (k : Nat) : filterUpdate f m k = f - filterMove (f - m) k := by
  have quotient : roundDiv (((m : Int) - f) * k) 16 = -(((f - m) * k + 8) / 16 : Nat) := by
    rw [← neg_sub, neg_mul, ← Nat.cast_sub h.le, ← Nat.cast_mul, roundDiv_neg, roundDiv_sixteenth]
  have sign : ((m : Int) - f).sign = -1 := Int.sign_eq_neg_one_of_neg (by omega)
  simp only [filterUpdate, filterMove, quotient, sign]
  split <;> omega

/-- R62: the figure stays between the old figure and the reading. -/
theorem filterUpdate_between (f m : Nat) {k : Nat} (hk : k ≤ 16) :
    min f m ≤ filterUpdate f m k ∧ filterUpdate f m k ≤ max f m := by
  rcases lt_trichotomy f m with h | rfl | h
  · have := filterMove_le (Nat.sub_pos_of_lt h) hk
    rw [filterUpdate_up h]
    omega
  · simp [filterUpdate_self]
  · have := filterMove_le (Nat.sub_pos_of_lt h) hk
    rw [filterUpdate_down h]
    omega

theorem filterUpdate_ne {f m : Nat} (h : f ≠ m) (k : Nat) : filterUpdate f m k ≠ f := by
  rcases h.lt_or_gt with h | h
  · have := filterMove_pos (m - f) k
    rw [filterUpdate_up h]
    omega
  · have := filterMove_pos (f - m) k
    rw [filterUpdate_down h]
    omega

theorem filterUpdate_sixteen (f m : Nat) : filterUpdate f m 16 = m := by
  rcases lt_trichotomy f m with h | rfl | h
  · rw [filterUpdate_up h, filterMove_sixteen (Nat.sub_pos_of_lt h)]
    omega
  · exact filterUpdate_self f 16
  · rw [filterUpdate_down h, filterMove_sixteen (Nat.sub_pos_of_lt h)]
    omega

theorem filterUpdate_next {f m k : Nat} (h : f + 1 = m ∨ m + 1 = f) (hk : k ≤ 16) : filterUpdate f m k = m := by
  rcases h with rfl | rfl
  · rw [filterUpdate_up (Nat.lt_add_one f), Nat.add_sub_cancel_left, filterMove_one hk]
  · rw [filterUpdate_down (Nat.lt_add_one m), Nat.add_sub_cancel_left, filterMove_one hk, Nat.add_sub_cancel]

end Sys2Proof.ProbeTable
end

section
/-! SUPPORT. A reading judged (R55 to R61): the entry and the faults, one equation for each case, and what becomes of
the filtered MC. -/

namespace Sys2Proof.ProbeTable

open Sys2Proof.Machine
open Sys2Proof.Safety
open Sys2Proof.Laws

theorem within_iff {j m f : Nat} : within j m (some f) = true ↔ f ≤ m + j ∧ m ≤ f + j := by
  simp [within, and_comm]

theorem rejects_ne_jump {c : ChannelStatus} {why : RejectReason} (h : c.rejects = some why) : why ≠ .jump := by
  rintro rfl
  cases c <;> cases h

/-! ### The outcome of each judgement -/

theorem settleAccept_eq (j : JudgeRules) (e : ProbeEntry) (m : Nat) : settleAccept j e m = { e with
    filtered := some ((e.filtered.map fun f => filterUpdate f m j.weight).getD m)
    progress := min (e.progress + 1) 8, streak := 0, lastAccepted := some j.minute
    state := if j.settle ≤ min (e.progress + 1) 8 then .active else .settling } := by
  unfold settleAccept
  cases e.filtered <;> rfl

/-- R57: the held MC that a rejection for a status leaves. -/
theorem held_status {r : Rejection} (h : r.reason ≠ .jump) : r.held = none := if_neg h

theorem settleReject_eq (j : JudgeRules) (e : ProbeEntry) (r : Rejection) : settleReject j e r =
    ({ e with progress := 0, streak := min (e.streak + 1) 15, lastReject := some r.reason
              state := if j.reject ≤ min (e.streak + 1) 15 then .excluded else .settling },
      (r.reason.fault, r.detail) ::
        if j.reject ≤ min (e.streak + 1) 15 then [(.probeExcluded, r.reason.code)] else []) := by
  simp only [settleReject, Rejection.faults, decide_eq_true_eq]
  rfl

theorem activeReject_eq (j : JudgeRules) (e : ProbeEntry) (r : Rejection) : activeReject j e r =
    ({ e with streak := 1, held := r.held, lastReject := some r.reason
              state := if j.reject ≤ 1 then .excluded else .suspect },
      (r.reason.fault, r.detail) :: if j.reject ≤ 1 then [(.probeExcluded, r.reason.code)] else []) := by
  simp only [activeReject, Rejection.faults, decide_eq_true_eq]

theorem suspectReject_eq (j : JudgeRules) (e : ProbeEntry) (r : Rejection) : suspectReject j e r =
    ({ e with streak := min (e.streak + 1) 15, held := r.held, lastReject := some r.reason
              state := if j.reject ≤ min (e.streak + 1) 15 then .excluded else .suspect },
      (r.reason.fault, r.detail) ::
        if j.reject ≤ min (e.streak + 1) 15 then [(.probeExcluded, r.reason.code)] else []) := by
  simp only [suspectReject, Rejection.faults, decide_eq_true_eq]
  rfl

theorem activeAccept_eq {j : JudgeRules} {e : ProbeEntry} {f : Nat} (h : e.filtered = some f) (m : Nat) :
    activeAccept j e m = { e with
      filtered := some (filterUpdate f m j.weight), streak := 0, lastAccepted := some j.minute, state := .active } := by
  simp only [activeAccept, h, Option.map_some]

/-! ### A VALID reading, by the entry's state (R56 to R58, R60) -/

section

variable {j : JudgeRules} {e : ProbeEntry} {m f h : Nat}

theorem judgeValid_settling (hs : e.state = .settling) : judgeValid j e m = (settleAccept j e m, []) := by
  simp only [judgeValid, hs]

theorem judgeValid_active_near (hs : e.state = .active) (near : within j.jump m e.filtered = true) :
    judgeValid j e m = (activeAccept j e m, []) := by
  simp only [judgeValid, hs, near, if_true]

theorem judgeValid_active_far (hs : e.state = .active) (far : ¬ within j.jump m e.filtered = true) :
    judgeValid j e m = activeReject j e { reason := .jump, detail := m } := by
  simp only [judgeValid, hs, if_neg far]

theorem judgeValid_suspect_near (hs : e.state = .suspect) (near : within j.jump m e.filtered = true) :
    judgeValid j e m = (suspectReturn j e m, []) := by
  simp only [judgeValid, hs, near, if_true]

theorem judgeValid_suspect_relevel (hs : e.state = .suspect) (far : ¬ within j.jump m e.filtered = true)
    (near : within j.jump m e.held = true) : judgeValid j e m = (suspectRelevel j e m, []) := by
  simp only [judgeValid, hs, if_neg far, near, if_true]

theorem judgeValid_suspect_far (hs : e.state = .suspect) (far : ¬ within j.jump m e.filtered = true)
    (apart : ¬ within j.jump m e.held = true) :
    judgeValid j e m = suspectReject j e { reason := .jump, detail := m } := by
  simp only [judgeValid, hs, if_neg far, if_neg apart]

theorem judgeValid_excluded (hs : e.state = .excluded) : judgeValid j e m = (e, []) := by
  simp only [judgeValid, hs]

end

/-! ### A rejected reading, by the entry's state (R56 to R58, R60) -/

section

variable {j : JudgeRules} {e : ProbeEntry} {r : Rejection}

theorem judgeRejected_settling (hs : e.state = .settling) : judgeRejected j e r = settleReject j e r := by
  simp only [judgeRejected, hs]

theorem judgeRejected_active (hs : e.state = .active) : judgeRejected j e r = activeReject j e r := by
  simp only [judgeRejected, hs]

theorem judgeRejected_suspect (hs : e.state = .suspect) : judgeRejected j e r = suspectReject j e r := by
  simp only [judgeRejected, hs]

theorem judgeRejected_excluded (hs : e.state = .excluded) : judgeRejected j e r = (e, []) := by
  simp only [judgeRejected, hs]

end

/-! ### A reading, by its status (R55) -/

theorem takeReading_valid {r : Reading} (h : r.status = .valid) (j : JudgeRules) (e : ProbeEntry) (v : Conversion) :
    e.takeReading j r v = judgeValid j { e with reading := some r, conversion := some v } v.mc := by
  simp only [ProbeEntry.takeReading, h, ChannelStatus.rejects]

theorem takeReading_rejected {r : Reading} {why : RejectReason} (h : r.status.rejects = some why) (j : JudgeRules)
    (e : ProbeEntry) (v : Conversion) : e.takeReading j r v =
      judgeRejected j { e with reading := some r, conversion := none } { reason := why, detail := r.code } := by
  simp only [ProbeEntry.takeReading, h]

theorem valid_or_rejected (c : ChannelStatus) : c = .valid ∨ ∃ why, c.rejects = some why := by
  cases c
  · exact .inl rfl
  all_goals exact .inr ⟨_, rfl⟩

/-! ### The filtered MC -/

/-- R62: the ways in which accepting `m` changes the filtered MC. -/
def Accepts (j : JudgeRules) (e : ProbeEntry) (m : Nat) (g : Option Nat) : Prop :=
  g = some m ∨ ∃ f, e.filtered = some f ∧ g = some (filterUpdate f m j.weight)

theorem accepts_settleAccept (j : JudgeRules) (e : ProbeEntry) (m : Nat) :
    Accepts j e m (settleAccept j e m).filtered := by
  rw [settleAccept_eq]
  cases h : e.filtered with
  | none => exact .inl rfl
  | some f => exact .inr ⟨f, h, rfl⟩

theorem accepts_activeAccept {j : JudgeRules} {e : ProbeEntry} {m : Nat} (near : within j.jump m e.filtered = true) :
    Accepts j e m (activeAccept j e m).filtered := by
  cases h : e.filtered with
  | none => simp [h, within] at near
  | some f => exact .inr ⟨f, h, by rw [activeAccept_eq h]⟩

theorem judgeRejected_filtered (j : JudgeRules) (e : ProbeEntry) (r : Rejection) :
    (judgeRejected j e r).1.filtered = e.filtered := by
  unfold judgeRejected
  split <;> rfl

theorem judgeValid_filtered (j : JudgeRules) (e : ProbeEntry) (m : Nat) :
    (judgeValid j e m).1.filtered = e.filtered ∨
      ((e.state = .settling ∨ e.state = .active ∨ e.state = .suspect) ∧
        Accepts j e m (judgeValid j e m).1.filtered) := by
  cases hs : e.state with
  | settling =>
    rw [judgeValid_settling hs]
    exact .inr ⟨.inl rfl, accepts_settleAccept j e m⟩
  | active =>
    by_cases near : within j.jump m e.filtered = true
    · rw [judgeValid_active_near hs near]
      exact .inr ⟨.inr (.inl rfl), accepts_activeAccept near⟩
    · rw [judgeValid_active_far hs near]
      exact .inl rfl
  | suspect =>
    by_cases near : within j.jump m e.filtered = true
    · rw [judgeValid_suspect_near hs near]
      exact .inr ⟨.inr (.inr rfl), accepts_activeAccept near⟩
    · by_cases level : within j.jump m e.held = true
      · rw [judgeValid_suspect_relevel hs near level]
        exact .inr ⟨.inr (.inr rfl), .inl rfl⟩
      · rw [judgeValid_suspect_far hs near level]
        exact .inl rfl
  | excluded | unmapped | stale =>
    refine .inl ?_
    simp only [judgeValid, hs]

end Sys2Proof.ProbeTable
end

section
/-! CERTIFICATE. Filter updates, and readings judged. -/

namespace Sys2Proof.ProbeTable

open Sys2Proof.Machine
open Sys2Proof.Safety
open Sys2Proof.Laws

/-- Settles O17: the update by the side on which the reading lies, and the filtered MC by the reading's status. -/
theorem filterUpdate : Obligations.FilterUpdate := by
  refine ⟨fun f m k => ⟨fun h => ?_, fun h _ => filterUpdate_down h k, filterUpdate_between f m,
      fun hne _ => filterUpdate_ne hne k, filterUpdate_sixteen f m, filterUpdate_next⟩,
    fun j e r v => ⟨?changes, fun hr hs hf => ?first, fun f h hr hs hf far hh near => ?relevel⟩⟩
  · rcases h.eq_or_lt with rfl | h
    · rw [if_pos rfl, filterUpdate_self]
    · rw [if_neg h.ne, filterUpdate_up h]
      rfl
  case changes =>
    rcases valid_or_rejected r.status with hr | ⟨why, hr⟩
    · rw [takeReading_valid hr]
      exact (judgeValid_filtered j _ v.mc).imp_right fun h => ⟨hr, h⟩
    · rw [takeReading_rejected hr]
      exact .inl (judgeRejected_filtered j _ _)
  case first =>
    rw [takeReading_valid hr, judgeValid_settling (by exact hs), settleAccept_eq]
    simp only [hf, Option.map_none, Option.getD_none]
  case relevel =>
    rw [takeReading_valid hr, judgeValid_suspect_relevel (by exact hs) (by simpa only [hf, within_iff] using far)
      (by simpa only [hh, within_iff] using near)]
    rfl

/-- Settles O18, by the entry's state and the reading's status, VALID readings by the figures they lie near. -/
theorem readingJudged : Obligations.ReadingJudged := by
  refine ⟨rfl, rfl, fun j e r v => ?_⟩
  intro near valid other streak
  have judged (h : r.status = .valid) : e.takeReading j r v = judgeValid j valid v.mc := takeReading_valid h j e v
  have rejected {why} (h : r.status.rejects = some why) :
      e.takeReading j r v = judgeRejected j other { reason := why, detail := r.code } := takeReading_rejected h j e v
  have unheld {why} (h : r.status.rejects = some why) : Rejection.held { reason := why, detail := r.code } = none :=
    held_status (rejects_ne_jump h)
  have reach {f : Nat} (hf : e.filtered = some f) : within j.jump v.mc valid.filtered = true ↔ near f v.mc := by
    rw [show valid.filtered = some f from hf, within_iff]
  have level {h : Nat} (hh : e.held = some h) : within j.jump v.mc valid.held = true ↔ near h v.mc := by
    rw [show valid.held = some h from hh, within_iff]
  refine ⟨fun hr hs => ?_, fun why hr hs => ?_, fun f hr hs hf hn => ?_, fun f hr hs hf hn => ?_, fun why hr hs => ?_,
    fun f hr hs hf hn => ?_, fun f h hr hs hf hn hh hl => ?_, fun f hr hs hf hn hl => ?_, fun why hr hs => ?_,
    fun hr hs => ?_, fun why hr hs => ?_⟩
  · rw [judged hr, judgeValid_settling (by exact hs), settleAccept_eq]
  · rw [rejected hr, judgeRejected_settling (by exact hs), settleReject_eq]
  · rw [judged hr, judgeValid_active_near (by exact hs) ((reach hf).2 hn), activeAccept_eq (by exact hf),
      ← show valid.state = .active from hs]
  · rw [judged hr, judgeValid_active_far (by exact hs) (mt (reach hf).1 hn), activeReject_eq]
    rfl
  · rw [rejected hr, judgeRejected_active (by exact hs), activeReject_eq, unheld hr]
  · rw [judged hr, judgeValid_suspect_near (by exact hs) ((reach hf).2 hn), suspectReturn,
      activeAccept_eq (by exact hf)]
  · rw [judged hr, judgeValid_suspect_relevel (by exact hs) (mt (reach hf).1 hn) ((level hh).2 hl)]
    rfl
  · have apart : ¬ within j.jump v.mc valid.held = true := by
      cases hh : e.held with
      | none => exact Bool.false_ne_true
      | some h => exact mt within_iff.1 (hl h hh)
    rw [judged hr, judgeValid_suspect_far (by exact hs) (mt (reach hf).1 hn) apart, suspectReject_eq]
    rfl
  · rw [rejected hr, judgeRejected_suspect (by exact hs), suspectReject_eq, unheld hr]
  · rw [judged hr, judgeValid_excluded (by exact hs)]
  · rw [rejected hr, judgeRejected_excluded (by exact hs)]

end Sys2Proof.ProbeTable
end

section
/-! CERTIFICATE. EXCLUDE_PROBES and INCLUDE_PROBES. -/

namespace Sys2Proof.ProbeTable

open Sys2Proof.Machine
open Sys2Proof.Safety
open Sys2Proof.Laws

/-- R51: the entries that EXCLUDE_PROBES changes: mapped, and not yet excluded by request. -/
theorem excludable_eq (e : ProbeEntry) :
    e.excludable = (e.isMapped && (e.state != .excluded || !e.manual)) := by
  unfold ProbeEntry.excludable ProbeEntry.isMapped
  cases e.state <;> rfl

/-- R49: a request that changes the suitable entries of a run one by one, and counts them. -/
theorem serveRequest_run {k : Byte} {suitable : ProbeEntry → Bool} {change : ProbeEntry → ProbeEntry} {s : State}
    {f : KilnFrame} {rest : List KilnFrame} {p e : Byte} {hit : Fin 192 → Bool} (h : Asked s k f rest)
    (hp : f.payload = [p, e]) (inTable : p.toNat ≤ 191) (span : e.toNat ≤ 7)
    (hits : ∀ i, hit i = (inRun p.toNat e.toNat i && suitable (s.probe i))) : ∃ probes : Vector ProbeEntry 192,
      serveRequest k (runBody suitable fun t i => t.setProbe i (change (t.probe i))) s =
        Answered s f rest [BitVec.ofNat 8 ((List.finRange 192).countP hit)] { s with probes := probes } ∧
      ∀ i : Fin 192, probes[i] = if hit i then change (s.probe i) else s.probe i := by
  let members := runMembers (Taken s rest) p.toNat e.toNat suitable
  obtain ⟨probes, changed, entries⟩ := setProbe_foldl change members (nodup_members _ _ _ _) (Taken s rest)
  have count : members.length = (List.finRange 192).countP hit := by
    rw [funext hits]
    exact len_members _ _ _ _
  have mem (i : Fin 192) : i ∈ members ↔ hit i = true := by
    rw [hits]
    simp only [members, runMembers, List.mem_filter, List.mem_finRange, true_and]
    rfl
  refine ⟨probes, ?_, fun i => ?_⟩
  · refine (serveRequest_done (t := { Taken s rest with probes := probes }) h ?_ rfl).trans rfl
    rw [hp, runBody_ok inTable span, ← count, changed]
    rfl
  · rw [entries]
    simp only [mem]
    rfl

/-- Settles O39: the checks of a run, then the run changed entry by entry. -/
theorem excludeInclude : Obligations.ExcludeInclude := by
  intro f rest s inRun out back
  refine ⟨fun h => ⟨fun hp => congrArg _ (serveRequest_refused h (runBody_len hp)), fun p e hp =>
      ⟨fun outside => ?_, fun inTable span => ?_⟩⟩,
    fun h => ⟨fun hp => congrArg _ (serveRequest_refused h (runBody_len hp)), fun p e hp =>
      ⟨fun outside => ?_, fun inTable span => ?_⟩⟩⟩
  · exact congrArg _ (serveRequest_refused (body := excludeProbesBody) h (by rw [hp]; exact runBody_range outside))
  · obtain ⟨probes, answer, entries⟩ := serveRequest_run (hit := out p e)
      (suitable := ProbeEntry.excludable) (change := fun x => { x with state := .excluded, manual := true }) h hp
      inTable span fun i => by rw [excludable_eq, ← Bool.and_assoc]; rfl
    exact ⟨probes, congrArg _ answer, entries⟩
  · exact congrArg _ (serveRequest_refused (body := includeProbesBody) h (by rw [hp]; exact runBody_range outside))
  · obtain ⟨probes, answer, entries⟩ := serveRequest_run (suitable := ProbeEntry.includable)
      (change := ProbeEntry.resettled) (hit := back p e) h hp inTable span fun i => rfl
    exact ⟨probes, congrArg _ answer, entries⟩

end Sys2Proof.ProbeTable
end

section
/-! SUPPORT. The rounded quotient (section 4.2) as a function: it meets `RoundedQuotient` alone, and it does not fall as
the dividend rises. -/

namespace Sys2Proof.MoistureConversion

open Sys2Proof.Machine
open Sys2Proof.Safety

variable {n n' k : Int} {d : Nat}

theorem roundDiv_eq_iff (hn : 0 ≤ n) (hd : 0 < d) :
    roundDiv n d = k ↔ 2 * d * k ≤ 2 * n + d ∧ 2 * n + d < 2 * d * (k + 1) := by
  rw [roundDiv, if_pos hn, Int.ediv_eq_iff_of_pos (by omega), mul_comm k, mul_add_one]

theorem roundedQuotient_iff (hd : 0 < d) : RoundedQuotient k n d ↔ k = roundDiv n d := by
  rcases le_or_gt 0 n with hn | hn
  · rw [eq_comm, roundDiv_eq_iff hn hd]
    exact ⟨fun h => h.1 hn, fun h => ⟨fun _ => h, fun neg => absurd neg (not_lt.2 hn)⟩⟩
  · rw [← neg_inj, ← ProbeTable.roundDiv_neg, eq_comm, roundDiv_eq_iff (by omega) hd]
    exact ⟨fun h => h.2 hn, fun h => ⟨fun pos => absurd hn (not_lt.2 pos), fun _ => h⟩⟩

theorem roundDiv_mul (k : Int) (hd : 0 < d) : roundDiv (k * d) d = k := by
  have exact_up : 2 * d * (k + 1) = 2 * (k * d) + 2 * d := by ring
  have exact_down : 2 * d * (-k + 1) = 2 * -(k * d) + 2 * d := by ring
  refine ((roundedQuotient_iff hd).1 ⟨fun _ => ?_, fun _ => ?_⟩).symm
  · rw [exact_up]
    constructor <;> linarith
  · rw [exact_down]
    constructor <;> linarith

theorem roundDiv_zero (hd : 0 < d) : roundDiv 0 d = 0 := by simpa using roundDiv_mul 0 hd

theorem roundDiv_mono (h : n ≤ n') (hd : 0 < d) : roundDiv n d ≤ roundDiv n' d := by
  have rise {a b : Int} (ha : 0 ≤ a) (hab : a ≤ b) : roundDiv a d ≤ roundDiv b d := by
    rw [roundDiv, roundDiv, if_pos ha, if_pos (ha.trans hab)]
    exact Int.ediv_le_ediv (by omega) (by omega)
  have fall {a b : Int} (hb : b ≤ 0) (hab : a ≤ b) : roundDiv a d ≤ roundDiv b d := by
    rw [← neg_le_neg_iff, ← ProbeTable.roundDiv_neg, ← ProbeTable.roundDiv_neg]
    exact rise (by omega) (by omega)
  rcases le_total 0 n with hn | hn
  · exact rise hn h
  · rcases le_total n' 0 with hn' | hn'
    · exact fall hn' h
    · exact (fall le_rfl hn).trans (rise le_rfl hn')

end Sys2Proof.MoistureConversion
end

section
/-! SUPPORT. The corrected code (R75, R77): both clamps and the rounded shift, which do not fall as the temperature or
the code rises. -/

namespace Sys2Proof.MoistureConversion

open Sys2Proof.Machine
open Sys2Proof.Safety

theorem clampInt_mono {lo hi x y : Int} (range : lo ≤ hi) (h : x ≤ y) : clampInt lo hi x ≤ clampInt lo hi y := by
  unfold clampInt
  split_ifs <;> omega

theorem correctCode_cast (kt : Nat) (t : Int) (code : Nat) :
    (correctCode kt t code : Int) = clampInt 0 4095 (code + roundDiv (kt * (t - 200)) 100) := by
  refine Int.toNat_of_nonneg ?_
  unfold clampInt
  split_ifs <;> omega

theorem correctCode_mono {kt : Nat} {t t' : Int} {code code' : Nat} (ht : t ≤ t') (hc : code ≤ code') :
    correctCode kt t code ≤ correctCode kt t' code' := by
  have shift : roundDiv (kt * (t - 200)) 100 ≤ roundDiv (kt * (t' - 200)) 100 :=
    roundDiv_mono (Int.mul_le_mul_of_nonneg_left (by omega) (by omega)) (by omega)
  exact Int.toNat_le_toNat (clampInt_mono (by decide) (by omega))

end Sys2Proof.MoistureConversion
end

section
/-! SUPPORT. A sound curve (R69) as a chain of falling segments, and the figure read along it (R79, R80). -/

namespace Sys2Proof.MoistureConversion

open Sys2Proof.Machine
open Sys2Proof.Safety

/-- R69: from one point of a curve to a later one the code rises and the figure falls. -/
def Falls (x y : CurvePoint) : Prop := x.code < y.code ∧ y.mc < x.mc

theorem Falls.trans {x y z : CurvePoint} (h : Falls x y) (k : Falls y z) : Falls x z :=
  ⟨h.1.trans k.1, k.2.trans h.2⟩

theorem curveFalls_iff (points : List CurvePoint) : curveFalls points = true ↔ points.IsChain Falls := by
  induction points with
  | nil => simp [curveFalls]
  | cons a rest ih =>
    cases rest with
    | nil => simp [curveFalls]
    | cons b rest => rw [curveFalls, Bool.and_eq_true, ih, List.isChain_cons_cons]; simp [Falls]

theorem curveOk_iff (points : List CurvePoint) : curveOk points = true ↔
    2 ≤ points.length ∧ points.length ≤ 16 ∧ (∀ q ∈ points, q.code ≤ 4095 ∧ q.mc ≤ 1200) ∧ points.IsChain Falls := by
  simp only [curveOk, Bool.and_eq_true, decide_eq_true_eq, List.all_eq_true, curveFalls_iff, and_assoc]

/-- A sound curve, taken apart at its first point. -/
theorem curveOk_cons {points : List CurvePoint} {a b : CurvePoint} (ok : curveOk points = true)
    (first : points.head? = some a) (last : points.getLast? = some b) :
    ∃ rest, points = a :: rest ∧ (a :: rest).IsChain Falls ∧ rest.getLastD a = b := by
  obtain ⟨rest, rfl⟩ := List.head?_eq_some_iff.1 first
  obtain ⟨_, _, _, falls⟩ := (curveOk_iff _).1 ok
  rw [List.getLast?_cons, Option.some_inj, ← List.getLastD_eq_getLast?] at last
  exact ⟨rest, rfl, falls, last⟩

/-! ### One segment (R80) -/

/-- R80: how far the figure moves from `a` towards `b`; negative on a falling segment. -/
def segmentMove (a b : CurvePoint) (l : Nat) : Int :=
  roundDiv (((b.mc : Int) - a.mc) * ((l : Int) - a.code)) (b.code - a.code)

theorem onSegment_eq (a b : CurvePoint) (l : Nat) : onSegment a b l = (a.mc + segmentMove a b l).toNat := rfl

section

variable {a b : CurvePoint} {l l' : Nat} (h : Falls a b)

include h

theorem segmentMove_start : segmentMove a b a.code = 0 := by
  simp [segmentMove, roundDiv_zero (Nat.sub_pos_of_lt h.1)]

theorem segmentMove_end : segmentMove a b b.code = b.mc - a.mc := by
  rw [segmentMove, ← Nat.cast_sub h.1.le, roundDiv_mul _ (Nat.sub_pos_of_lt h.1)]

theorem segmentMove_antitone (hl : l ≤ l') : segmentMove a b l' ≤ segmentMove a b l := by
  obtain ⟨rises, falls⟩ := h
  exact roundDiv_mono (Int.mul_le_mul_of_nonpos_left (by omega) (by omega)) (Nat.sub_pos_of_lt rises)

theorem onSegment_cast (to_b : l ≤ b.code) : (onSegment a b l : Int) = a.mc + segmentMove a b l := by
  have least := segmentMove_antitone h to_b
  rw [segmentMove_end h] at least
  rw [onSegment_eq]
  exact Int.toNat_of_nonneg (by omega)

theorem onSegment_start : onSegment a b a.code = a.mc := by
  rw [onSegment_eq, segmentMove_start h, add_zero, Int.toNat_natCast]

theorem onSegment_end : onSegment a b b.code = b.mc := by
  rw [onSegment_eq, segmentMove_end h, add_sub_cancel, Int.toNat_natCast]

theorem onSegment_antitone (hl : l ≤ l') : onSegment a b l' ≤ onSegment a b l :=
  Int.toNat_le_toNat (Int.add_le_add_left (segmentMove_antitone h hl) _)

theorem onSegment_between (from_a : a.code ≤ l) (to_b : l ≤ b.code) :
    b.mc ≤ onSegment a b l ∧ onSegment a b l ≤ a.mc := by
  have low := onSegment_antitone h to_b
  have high := onSegment_antitone h from_a
  rw [onSegment_end h] at low
  rw [onSegment_start h] at high
  exact ⟨low, high⟩

end

/-! ### The whole curve -/

theorem alongCurve_before {l : Nat} {a b : CurvePoint} (rest : List CurvePoint) (h : l < b.code) :
    alongCurve l a (b :: rest) = onSegment a b l := if_pos h

theorem alongCurve_past {l : Nat} {a b : CurvePoint} (rest : List CurvePoint) (h : b.code ≤ l) :
    alongCurve l a (b :: rest) = alongCurve l b rest := if_neg (not_lt.2 h)

/-- Every point of a falling curve lies at or after its first point in code, and at or below it in figure. -/
theorem falls_of_mem {a x : CurvePoint} {rest : List CurvePoint} (h : (a :: rest).IsChain Falls) (hx : x ∈ a :: rest) :
    a.code ≤ x.code ∧ x.mc ≤ a.mc := by
  have transitive : Trans Falls Falls Falls := ⟨Falls.trans⟩
  rcases List.mem_cons.1 hx with rfl | later
  · exact ⟨le_rfl, le_rfl⟩
  · obtain ⟨rises, falls⟩ := List.rel_of_pairwise_cons h.pairwise later
    exact ⟨rises.le, falls.le⟩

theorem last_falls {a : CurvePoint} {rest : List CurvePoint} (h : (a :: rest).IsChain Falls) :
    a.code ≤ (rest.getLastD a).code ∧ (rest.getLastD a).mc ≤ a.mc := falls_of_mem h List.getLastD_mem_cons

theorem code_le_last {a x : CurvePoint} {rest : List CurvePoint} (h : (a :: rest).IsChain Falls) (hx : x ∈ a :: rest) :
    x.code ≤ (rest.getLastD a).code := by
  induction rest generalizing a with
  | nil => rw [List.mem_singleton.1 hx]; exact le_rfl
  | cons b rest ih =>
    rcases List.mem_cons.1 hx with rfl | later
    · exact (last_falls h).1
    · rw [List.getLastD_cons]
      exact ih (List.isChain_cons_cons.1 h).2 later

theorem falls_of_next {points : List CurvePoint} {x y : CurvePoint} {i : Nat} (h : points.IsChain Falls)
    (hx : points[i]? = some x) (hy : points[i + 1]? = some y) : Falls x y := by
  obtain ⟨_, rfl⟩ := List.getElem?_eq_some_iff.1 hx
  obtain ⟨bound, rfl⟩ := List.getElem?_eq_some_iff.1 hy
  exact h.getElem i bound

theorem alongCurve_between {l : Nat} {a : CurvePoint} {rest : List CurvePoint} (h : (a :: rest).IsChain Falls)
    (hl : a.code ≤ l) : (rest.getLastD a).mc ≤ alongCurve l a rest ∧ alongCurve l a rest ≤ a.mc := by
  induction rest generalizing a with
  | nil => exact ⟨le_rfl, le_rfl⟩
  | cons b rest ih =>
    obtain ⟨fall, tail⟩ := List.isChain_cons_cons.1 h
    rw [List.getLastD_cons]
    rcases lt_or_ge l b.code with before | past
    · rw [alongCurve_before rest before]
      obtain ⟨low, high⟩ := onSegment_between fall hl before.le
      exact ⟨(last_falls tail).2.trans low, high⟩
    · rw [alongCurve_past rest past]
      obtain ⟨low, high⟩ := ih tail past
      exact ⟨low, high.trans fall.2.le⟩

theorem alongCurve_antitone {l l' : Nat} {a : CurvePoint} {rest : List CurvePoint} (h : (a :: rest).IsChain Falls)
    (hl : a.code ≤ l) (hll : l ≤ l') : alongCurve l' a rest ≤ alongCurve l a rest := by
  induction rest generalizing a with
  | nil => exact le_rfl
  | cons b rest ih =>
    obtain ⟨fall, tail⟩ := List.isChain_cons_cons.1 h
    rcases lt_or_ge l' b.code with before | past'
    · rw [alongCurve_before rest before, alongCurve_before rest (hll.trans_lt before)]
      exact onSegment_antitone fall hll
    · rw [alongCurve_past rest past']
      rcases lt_or_ge l b.code with before | past
      · rw [alongCurve_before rest before]
        exact (alongCurve_between tail past').2.trans (onSegment_between fall hl before.le).1
      · rw [alongCurve_past rest past]
        exact ih tail past

theorem alongCurve_start {a : CurvePoint} {rest : List CurvePoint} (h : (a :: rest).IsChain Falls) :
    alongCurve a.code a rest = a.mc := by
  cases rest with
  | nil => rfl
  | cons b rest =>
    have fall := (List.isChain_cons_cons.1 h).1
    rw [alongCurve_before rest fall.1, onSegment_start fall]

theorem alongCurve_end {l : Nat} {a : CurvePoint} {rest : List CurvePoint} (h : (a :: rest).IsChain Falls)
    (hl : (rest.getLastD a).code ≤ l) : alongCurve l a rest = (rest.getLastD a).mc := by
  induction rest generalizing a with
  | nil => rfl
  | cons b rest ih =>
    have tail := (List.isChain_cons_cons.1 h).2
    rw [List.getLastD_cons] at hl ⊢
    rw [alongCurve_past rest ((last_falls tail).1.trans hl), ih tail hl]

/-- R80: between two neighbouring points the figure is the one on their segment. -/
theorem alongCurve_segment {l i : Nat} {a x y : CurvePoint} {rest : List CurvePoint} (h : (a :: rest).IsChain Falls)
    (hx : (a :: rest)[i]? = some x) (hy : (a :: rest)[i + 1]? = some y) (from_x : x.code ≤ l) (to_y : l < y.code) :
    alongCurve l a rest = onSegment x y l := by
  induction rest generalizing a i with
  | nil => cases hy
  | cons b rest ih =>
    cases i with
    | zero =>
      cases hx
      cases hy
      exact alongCurve_before rest to_y
    | succ i =>
      have tail := (List.isChain_cons_cons.1 h).2
      have from_b : b.code ≤ x.code := (falls_of_mem tail (List.mem_of_getElem? hx)).1
      rw [alongCurve_past rest (from_b.trans from_x)]
      exact ih tail hx hy

end Sys2Proof.MoistureConversion
end

section
/-! SUPPORT. The figure and flag of a corrected code (R79), from below the first point to above the last. -/

namespace Sys2Proof.MoistureConversion

open Sys2Proof.Machine
open Sys2Proof.Safety

section

variable {a : CurvePoint} {rest : List CurvePoint} {l l' : Nat}

theorem curveFigure_wet (h : l < a.code) : curveFigure (a :: rest) l = (a.mc, .wetEnd) := if_pos h

theorem curveFigure_within (from_a : a.code ≤ l) (to_b : l ≤ (rest.getLastD a).code) :
    curveFigure (a :: rest) l = (alongCurve l a rest, .none) := by
  rw [curveFigure, if_neg (not_lt.2 from_a), if_neg (not_lt.2 to_b)]

variable (h : (a :: rest).IsChain Falls)

include h

theorem curveFigure_dry (hl : (rest.getLastD a).code < l) :
    curveFigure (a :: rest) l = ((rest.getLastD a).mc, .dryEnd) := by
  rw [curveFigure, if_neg (not_lt.2 ((last_falls h).1.trans hl.le)), if_pos hl]

/-- The figure of any code is the one along the curve of the code brought up to the first point. -/
theorem curveFigure_mc : (curveFigure (a :: rest) l).1 = alongCurve (max l a.code) a rest := by
  rcases lt_or_ge l a.code with below | from_a
  · rw [curveFigure_wet below, max_eq_right below.le, alongCurve_start h]
  · rw [max_eq_left from_a]
    rcases lt_or_ge (rest.getLastD a).code l with above | to_b
    · rw [curveFigure_dry h above, alongCurve_end h above.le]
    · rw [curveFigure_within from_a to_b]

theorem curveFigure_antitone (hl : l ≤ l') : (curveFigure (a :: rest) l').1 ≤ (curveFigure (a :: rest) l).1 := by
  rw [curveFigure_mc h, curveFigure_mc h]
  exact alongCurve_antitone h (le_max_right _ _) (max_le_max_right _ hl)

theorem curveFigure_between :
    (rest.getLastD a).mc ≤ (curveFigure (a :: rest) l).1 ∧ (curveFigure (a :: rest) l).1 ≤ a.mc := by
  rw [curveFigure_mc h]
  exact alongCurve_between h (le_max_right _ _)

end

/-- R79, R80: on the segment that holds the corrected code, the rounded figure without a flag. -/
theorem curveFigure_segment {l i : Nat} {a x y : CurvePoint} {rest : List CurvePoint} (h : (a :: rest).IsChain Falls)
    (hx : (a :: rest)[i]? = some x) (hy : (a :: rest)[i + 1]? = some y) (from_x : x.code ≤ l) (to_y : l < y.code) :
    (curveFigure (a :: rest) l).2 = .none ∧ RoundedQuotient (((curveFigure (a :: rest) l).1 : Int) - x.mc)
      (((y.mc : Int) - x.mc) * ((l : Int) - x.code)) (y.code - x.code) := by
  have fall := falls_of_next h hx hy
  have from_a : a.code ≤ l := (falls_of_mem h (List.mem_of_getElem? hx)).1.trans from_x
  have to_b : l ≤ (rest.getLastD a).code := to_y.le.trans (code_le_last h (List.mem_of_getElem? hy))
  rw [curveFigure_within from_a to_b]
  refine ⟨rfl, (roundedQuotient_iff (Nat.sub_pos_of_lt fall.1)).2 ?_⟩
  rw [alongCurve_segment h hx hy from_x to_y, onSegment_cast fall to_y.le, add_sub_cancel_left]
  rfl

end Sys2Proof.MoistureConversion
end

section
/-! SUPPORT. The temperature source of a conversion by R74's order, and the conversion as a whole (R73, R82). -/

namespace Sys2Proof.MoistureConversion

open Sys2Proof.Machine
open Sys2Proof.Safety

/-! ### The temperature source (R74) -/

theorem validTemp_eq_some {n : NodeEntry} {t : Int} :
    n.validTemp = some t ↔ ∃ x, n.lastTemp = some x ∧ x.fault = false ∧ x.value = t := by
  simp [NodeEntry.validTemp, Option.bind_eq_some_iff]

theorem validTemp_eq_none {n : NodeEntry} (h : ¬ ∃ x, n.lastTemp = some x ∧ x.fault = false) : n.validTemp = none := by
  rw [Option.eq_none_iff_forall_ne_some]
  intro t ht
  obtain ⟨x, hx, valid, _⟩ := validTemp_eq_some.1 ht
  exact h ⟨x, hx, valid⟩

theorem freshDry_eq_some {z : ZoneEntry} {d : DriverStatus} (h : z.lastStatus = some d) (age : z.age ≤ 2) :
    z.freshDry = some d.dry := by
  simp [ZoneEntry.freshDry, ZoneEntry.fresh, h, age]

theorem freshDry_eq_none {z : ZoneEntry} (h : ¬ (z.lastStatus ≠ none ∧ z.age ≤ 2)) : z.freshDry = none := by
  refine if_neg fun fresh => h ?_
  simpa [ZoneEntry.fresh, Option.isSome_iff_ne_none] using fresh

theorem publishedDry_engaged {q : Sequencer} {w : Int} (h : q.engaged = true) (hw : q.working = some w) :
    q.publishedDry = some (roundDiv w 10) := by
  simp [Sequencer.publishedDry, h, hw]

theorem publishedDry_idle {q : Sequencer} (h : q.engaged = false) : q.publishedDry = none := by
  simp [Sequencer.publishedDry, h]

section

variable {s : State} {m : Mapping}

theorem chooseTemp_node {t : Int} (h : (s.node m.node).validTemp = some t) : chooseTemp s m = (.node, t) := by
  simp only [chooseTemp, h]

variable (unread : (s.node m.node).validTemp = none)

include unread

theorem chooseTemp_zone {t : Int} (h : (s.zone m.zone).freshDry = some t) : chooseTemp s m = (.zoneMeasured, t) := by
  simp only [chooseTemp, unread, h]

variable (stale : (s.zone m.zone).freshDry = none)

include stale

theorem chooseTemp_setpoint {t : Int} (h : s.sequencer.publishedDry = some t) : chooseTemp s m = (.setpoint, t) := by
  simp only [chooseTemp, unread, stale, h]

theorem chooseTemp_reference (h : s.sequencer.publishedDry = none) : chooseTemp s m = (.reference, 200) := by
  simp only [chooseTemp, unread, stale, h]

end

/-! ### The conversion -/

theorem convert_eq {s : State} {m : Mapping} {src : TempSource} {t : Int} (h : chooseTemp s m = (src, t)) (code : Nat) :
    s.convert m code = convertOn s.curves[m.profile] src t code := by
  rw [State.convert, h]

/-- R82: the figure does not rise with the code nor with the temperature. -/
theorem convertOn_antitone {p : Profile} {a b : CurvePoint} (ok : curveOk p.points = true)
    (first : p.points.head? = some a) (last : p.points.getLast? = some b) (src src' : TempSource) {t t' : Int}
    {code code' : Nat} (ht : t ≤ t') (hc : code ≤ code') :
    (convertOn p src' t' code').mc ≤ (convertOn p src t code).mc := by
  obtain ⟨rest, points, falls, _⟩ := curveOk_cons ok first last
  rw [convertOn, convertOn, points]
  exact curveFigure_antitone falls (correctCode_mono (clampInt_mono (by decide) ht) hc)

end Sys2Proof.MoistureConversion
end

section
/-! CERTIFICATE. Conversions. -/

namespace Sys2Proof.MoistureConversion

open Sys2Proof.Machine
open Sys2Proof.Safety

/-- Settles O19: the source by R74's order, the correction, and the figure along the curve (`curveFigure_antitone`,
`curveFigure_segment`). -/
theorem conversionMonotone : Obligations.ConversionMonotone := by
  refine ⟨fun p src src' t t' code code' a b ok first last => ⟨?between, fun hc => ?_, fun ht _ => ?_⟩,
    fun s m code => ?source, fun p src t code => ⟨?corrected, rfl, fun a b ok first last => ?figure⟩⟩
  case between =>
    obtain ⟨rest, points, falls, rfl⟩ := curveOk_cons ok first last
    rw [convertOn, points]
    exact curveFigure_between falls
  · exact convertOn_antitone ok first last src src' le_rfl hc
  · exact convertOn_antitone ok first last src src' ht le_rfl
  case source =>
    intro c on zone valid fresh
    refine ⟨fun x hx ok => ?_, fun d hv hd age => ?_, fun w d hv hf engaged hw hd => ?_, fun hv hf idle => ?_⟩
    · exact convert_eq (chooseTemp_node (validTemp_eq_some.2 ⟨x, hx, ok, rfl⟩)) code
    · exact convert_eq (chooseTemp_zone (validTemp_eq_none hv) (freshDry_eq_some hd age)) code
    · rw [(roundedQuotient_iff (by decide)).1 hd]
      exact convert_eq (chooseTemp_setpoint (validTemp_eq_none hv) (freshDry_eq_none hf)
        (publishedDry_engaged engaged hw)) code
    · exact convert_eq (chooseTemp_reference (validTemp_eq_none hv) (freshDry_eq_none hf) (publishedDry_idle idle)) code
  case corrected =>
    exact ⟨_, (roundedQuotient_iff (by decide)).2 rfl, correctCode_cast _ _ _⟩
  case figure =>
    obtain ⟨rest, points, falls, rfl⟩ := curveOk_cons ok first last
    simp only [convertOn, points]
    generalize correctCode p.kt (clampInt 0 1200 t) code = l
    refine ⟨fun below => ?_, fun above => ?_, fun at_end => ?_, fun i x y hx hy => curveFigure_segment falls hx hy⟩
    · rw [curveFigure_wet below]
      exact ⟨rfl, rfl⟩
    · rw [curveFigure_dry falls above]
      exact ⟨rfl, rfl⟩
    · rw [at_end, curveFigure_within (last_falls falls).1 le_rfl, alongCurve_end falls le_rfl]
      exact ⟨rfl, rfl⟩

end Sys2Proof.MoistureConversion
end

section
/-! SUPPORT. LOAD_CURVE (R68 to R70) and READ_CURVE (R72): their checks, and the bytes of a profile field by field. -/

namespace Sys2Proof.MoistureConversion

open Sys2Proof.Machine
open Sys2Proof.Safety
open Sys2Proof.Laws

/-! ### LOAD_CURVE -/

theorem length_curvePoints (p : List Byte) (n : Nat) : (curvePoints p n).length = n := by simp [curvePoints]

/-- R69: the range checks of a point list, read off the payload's offsets. -/
theorem curveOk_curvePoints (p : List Byte) (n : Nat) : curveOk (curvePoints p n) = true ↔
    2 ≤ n ∧ n ≤ 16 ∧ (∀ i < n, u16At p (3 + 4 * i) ≤ 4095 ∧ u16At p (5 + 4 * i) ≤ 1200) ∧
      ∀ i, i + 1 < n → u16At p (3 + 4 * i) < u16At p (3 + 4 * (i + 1)) ∧
        u16At p (5 + 4 * (i + 1)) < u16At p (5 + 4 * i) := by
  rw [curveOk_iff, length_curvePoints]
  refine and_congr_right' (and_congr_right' (and_congr ?_ ?_))
  · simp [curvePoints]
  · rw [List.isChain_iff_getElem]
    simp [curvePoints, Falls]

theorem profileUsers_eq_zero (s : State) (k : Fin 8) : profileUsers s k = 0 ↔
    ∀ i : Fin 192, ((s.probe i).isMapped && (s.probe i).mapping.any fun m => m.profile == k) = false := by
  simp only [profileUsers, List.countP_eq_zero, List.mem_finRange, true_imp_iff, Bool.not_eq_true]

theorem curveLengthOk_iff (p : List Byte) :
    curveLengthOk p = true ↔ 3 ≤ p.length ∧ p.length = 3 + 4 * (byteAt p 2).toNat := by
  simp [curveLengthOk]

section

variable {p : List Byte} {s : State}

theorem loadCurveBody_badLength (h : p.length < 3 ∨ p.length ≠ 3 + 4 * (byteAt p 2).toNat) :
    loadCurveBody p s = .error .badLength := by
  refine if_neg fun long => ?_
  obtain ⟨least, exactly⟩ := (curveLengthOk_iff p).1 long
  exact h.elim (not_lt.2 least) (absurd exactly)

variable (long : curveLengthOk p = true)

include long

theorem loadCurveBody_range
    (h : indexOf 8 (byteAt p 0) = none ∨ ¬ curveOk (curvePoints p (byteAt p 2).toNat) = true) :
    loadCurveBody p s = .error .range := by
  rw [loadCurveBody, if_pos long]
  rcases h with h | h
  · simp only [h]
  · cases indexOf 8 (byteAt p 0) <;> simp only [if_neg h]

variable {k : Fin 8} (number : indexOf 8 (byteAt p 0) = some k)
  (ok : curveOk (curvePoints p (byteAt p 2).toNat) = true)

include number ok

theorem loadCurveBody_busy (engaged : s.sequencer.engaged = true) (used : profileUsers s k ≠ 0) :
    loadCurveBody p s = .error .busy := by
  simp [loadCurveBody, long, number, ok, engaged, used]

theorem loadCurveBody_loads (h : s.sequencer.engaged = false ∨ profileUsers s k = 0) : loadCurveBody p s =
    done (storeCurve k (byteAt p 1).toNat (curvePoints p (byteAt p 2).toNat) s)
      (b1 k.val ++ b1 (byteAt p 2).toNat ++ b1 (profileUsers s k)) := by
  have free : (s.sequencer.engaged && profileUsers s k != 0) = false := by
    rcases h with idle | unused
    · simp [idle]
    · simp [unused]
  simp only [loadCurveBody, long, number, ok, free, length_curvePoints, if_true, Bool.false_eq_true, if_false]

end

/-! ### READ_CURVE -/

theorem readCurveBody_badLength {p : List Byte} (h : p.length ≠ 1) (s : State) :
    readCurveBody p s = .error .badLength := by
  match p, h with
  | [], _ => rfl
  | [_], h => exact absurd rfl h
  | _ :: _ :: _, _ => rfl

theorem readCurveBody_range {n : Byte} (h : 7 < n.toNat) (s : State) : readCurveBody [n] s = .error .range := by
  simp only [readCurveBody, ProbePolling.indexOf_eq_none.2 h]

theorem readCurveBody_reads {n : Byte} {k : Fin 8} (h : n.toNat = k.val) (s : State) :
    readCurveBody [n] s = done s (profileBytes k s.curves[k] (profileUsers s k)) := by
  simp only [readCurveBody, ProbePolling.indexOf_eq_some.2 h]

theorem byteAt_append_right (head body : List Byte) (m : Nat) : byteAt (head ++ body) (head.length + m) = byteAt body m := by
  rw [byteAt, List.getD_append_right _ _ _ _ (Nat.le_add_right _ _), Nat.add_sub_cancel_left]
  rfl

/-- A list of blocks of one width, read at an offset: the byte of the block that the offset falls in. -/
theorem byteAt_flatMap {α : Type} {block : α → List Byte} {w : Nat} (width : ∀ x, (block x).length = w) {xs : List α}
    {i j : Nat} {x : α} (hx : xs[i]? = some x) (hj : j < w) :
    byteAt (xs.flatMap block) (w * i + j) = byteAt (block x) j := by
  induction xs generalizing i with
  | nil => cases hx
  | cons y ys ih =>
    rw [List.flatMap_cons]
    cases i with
    | zero =>
      cases hx
      rw [Nat.mul_zero, Nat.zero_add, byteAt, List.getD_append _ _ _ _ (by rw [width]; exact hj)]
      rfl
    | succ i =>
      have next_block : w * (i + 1) + j = (block y).length + (w * i + j) := by rw [width, Nat.mul_succ]; omega
      rw [next_block, byteAt_append_right]
      exact ih hx

theorem length_flatMap_of_width {α : Type} {block : α → List Byte} {w : Nat} (width : ∀ x, (block x).length = w)
    (xs : List α) : (xs.flatMap block).length = w * xs.length := by
  simp [List.length_flatMap, width, Nat.mul_comm]

theorem length_pointBytes (q : CurvePoint) : (b2 q.code ++ b2 q.mc).length = 4 := rfl

/-- R72: a curve's points as they are sent behind other fields, four bytes each. -/
theorem points_hold (head : List Byte) {points : List CurvePoint} {i : Nat} {q : CurvePoint} (hq : points[i]? = some q) :
    Holds2 (head ++ points.flatMap fun q => b2 q.code ++ b2 q.mc) (head.length + 4 * i) (some q.code) ∧
      Holds2 (head ++ points.flatMap fun q => b2 q.code ++ b2 q.mc) (head.length + 4 * i + 2) (some q.mc) := by
  have read {j : Nat} (hj : j < 4) :
      byteAt (head ++ points.flatMap fun q => b2 q.code ++ b2 q.mc) (head.length + 4 * i + j) =
        byteAt (b2 q.code ++ b2 q.mc) j := by
    rw [Nat.add_assoc, byteAt_append_right, byteAt_flatMap length_pointBytes hq hj]
  obtain ⟨_, _, code, hCode⟩ := b2_holds q.code
  obtain ⟨_, _, mc, hMc⟩ := b2_holds q.mc
  rw [code, mc] at read
  exact ⟨hCode _ _ (read (j := 0) (by decide)) (read (j := 1) (by decide)),
    hMc _ _ (read (j := 2) (by decide)) (read (j := 3) (by decide))⟩

theorem profileByte_toNat (k : Fin 8) (loaded : Bool) :
    (BitVec.ofNat 8 (k.val + 128 * loaded.toNat)).toNat = k.val + if loaded then 128 else 0 := by
  revert k loaded
  decide

/-- The fields of a profile stand at their offsets. -/
structure ProfileFields (d : List Byte) (k : Fin 8) (c : Profile) (users : Nat) : Prop where
  length : d.length = 4 + 4 * c.points.length
  number : (byteAt d 0).toNat = k.val + if c.loaded then 128 else 0
  kt     : Holds1 d 1 (some c.kt)
  count  : Holds1 d 2 (some c.points.length)
  users  : Holds1 d 3 (some users)
  points : ∀ (i : Nat) (q : CurvePoint), c.points[i]? = some q →
    Holds2 d (4 + 4 * i) (some q.code) ∧ Holds2 d (6 + 4 * i) (some q.mc)

theorem profileBytes_fields (k : Fin 8) (c : Profile) (users : Nat) :
    ProfileFields (profileBytes k c users) k c users := by
  obtain ⟨_, kt, hKt⟩ := b1_holds c.kt
  obtain ⟨_, count, hCount⟩ := b1_holds c.points.length
  obtain ⟨_, named, hNamed⟩ := b1_holds users
  unfold profileBytes
  rw [kt, count, named]
  exact {
    length := by
      rw [List.length_append, length_flatMap_of_width length_pointBytes]
      rfl
    number := profileByte_toNat k c.loaded
    kt := hKt _ _ rfl
    count := hCount _ _ rfl
    users := hNamed _ _ rfl
    points := fun i q hq => by
      obtain ⟨code, mc⟩ := points_hold (b1 (k.val + 128 * c.loaded.toNat) ++ [_] ++ [_] ++ [_]) hq
      rw [Nat.add_right_comm] at mc
      exact ⟨code, mc⟩ }

end Sys2Proof.MoistureConversion
end

section
/-! CERTIFICATE. LOAD_CURVE and READ_CURVE. -/

namespace Sys2Proof.MoistureConversion

open Sys2Proof.Machine
open Sys2Proof.Safety
open Sys2Proof.Laws

/-- Settles O36: the checks of R68 to R70 in their order, then the profile replaced; R72 field by field
(`profileBytes_fields`). -/
theorem curveRequests : Obligations.CurveRequests := by
  refine ⟨fun f rest s h => ?load, fun f rest s h => ?read⟩
  case load =>
    intro p n code mc sound
    have ok : curveOk (curvePoints p n) = true ↔ sound := curveOk_curvePoints p n
    refine ⟨fun bad => congrArg _ (serveRequest_refused h (loadCurveBody_badLength bad)),
      fun least exactly bad => congrArg _ (serveRequest_refused (why := .range) h ?_), fun k least exactly hk hs => ?_⟩
    · exact loadCurveBody_range ((curveLengthOk_iff p).2 ⟨least, exactly⟩)
        (bad.imp (fun out => ProbePolling.indexOf_eq_none.2 out) (mt ok.1))
    · intro names users
      have long := (curveLengthOk_iff p).2 ⟨least, exactly⟩
      have number := ProbePolling.indexOf_eq_some.2 hk
      have unused : profileUsers (Taken s rest) k = 0 ↔ ∀ i, names i = false := profileUsers_eq_zero _ k
      refine ⟨fun engaged ⟨i, hi⟩ => congrArg _ (serveRequest_refused (why := .busy) h ?_), fun free => ?_⟩
      · refine loadCurveBody_busy long number (ok.2 hs) engaged fun unnamed => ?_
        rw [unused.1 unnamed i] at hi
        cases hi
      · have loads := loadCurveBody_loads long number (ok.2 hs) (free.imp_right unused.2)
        rw [b1, ProbePolling.ofNat_eq_of_toNat hk, b1, ProbePolling.ofNat_eq_of_toNat rfl] at loads
        exact congrArg _ ((serveRequest_done h loads rfl).trans rfl)
  case read =>
    refine ⟨fun bad => congrArg _ (serveRequest_refused h (readCurveBody_badLength bad _)),
      fun n hp => ⟨fun out => congrArg _ (serveRequest_refused (why := .range) h ?_), fun k hk => ?_⟩⟩
    · rw [hp]
      exact readCurveBody_range out _
    · intro c names
      have fields := profileBytes_fields k c (profileUsers s k)
      refine ⟨_, congrArg _ (serveRequest_read h ?_), fields.length, fields.number, fields.kt, fields.count,
        fields.users, fields.points⟩
      rw [hp]
      exact readCurveBody_reads hk _

end Sys2Proof.MoistureConversion
end

section
/-! SUPPORT. The contributors of an Estimate and their Wet Ranking (R84, R85). -/

namespace Sys2Proof.ChargeEstimate

open Sys2Proof.Machine
open Sys2Proof.Safety
open Sys2Proof.Laws

/-- R84: what a probe contributes, and when. -/
theorem contribution_eq_some {p : Fin 192} {e : ProbeEntry} {x : RankEntry} : contribution p e = some x ↔
    (e.state = .active ∨ e.state = .suspect) ∧ x.probe = p ∧ e.filtered = some x.mc ∧
      e.mapping.map (·.zone) = some x.zone ∧ x.held = (e.state == .suspect) := by
  obtain ⟨probe, mc, zone, held⟩ := x
  have active_not_suspect : (ProbeState.active == ProbeState.suspect) = false := rfl
  unfold contribution
  split
  · next active figure mapped => simp [active, figure, mapped, active_not_suspect, eq_comm]
  · next suspect figure mapped => simp [suspect, figure, mapped, eq_comm]
  · next notActive notSuspect =>
    refine iff_of_false nofun fun ⟨contributes, _, figure, mapped, _⟩ => ?_
    obtain ⟨m, mapped, -⟩ := Option.map_eq_some_iff.1 mapped
    exact contributes.elim (fun h => notActive _ _ h figure mapped) fun h => notSuspect _ _ h figure mapped

/-- R84: on a sound Probe Table every ACTIVE or SUSPECT probe contributes. -/
theorem exists_contribution {p : Fin 192} {e : ProbeEntry} (mapped : e.isMapped = e.mapping.isSome) (figured : Figured e)
    (h : e.state = .active ∨ e.state = .suspect) : ∃ x, contribution p e = some x := by
  have hm : e.mapping.isSome = true := by
    rw [← mapped]
    rcases h with h | h <;> simp [ProbeEntry.isMapped, h]
  obtain ⟨m, hm⟩ := Option.isSome_iff_exists.1 hm
  obtain ⟨f, hf⟩ := Option.isSome_iff_exists.1 (figured h)
  exact ⟨{ probe := p, mc := f, zone := m.zone, held := e.state == .suspect },
    contribution_eq_some.2 ⟨h, rfl, hf, by rw [hm]; rfl, rfl⟩⟩

theorem mem_ranking {s : State} {x : RankEntry} :
    x ∈ rankOf (contributors s) ↔ contribution x.probe (s.probe x.probe) = some x := by
  rw [(rankOf_perm s).mem_iff, contributors, List.mem_filterMap]
  refine ⟨fun ⟨p, _, h⟩ => ?_, fun h => ⟨x.probe, List.mem_finRange _, h⟩⟩
  rw [contribution_probe h]
  exact h

theorem nodup_ranking_probes (s : State) : ((rankOf (contributors s)).map (·.probe)).Nodup := by
  rw [((rankOf_perm s).map _).nodup_iff, List.Nodup, List.pairwise_map]
  exact (contributors_pairwise s).imp ne_of_lt

theorem length_ranking_le (s : State) : (rankOf (contributors s)).length ≤ 192 := by
  rw [(rankOf_perm s).length_eq]
  exact (List.length_filterMap_le _ _).trans List.length_finRange.le

end Sys2Proof.ChargeEstimate
end

section
/-! CERTIFICATE. The Wet Ranking of an Estimate (R85). -/

namespace Sys2Proof.ChargeEstimate

open Sys2Proof.Machine
open Sys2Proof.Safety
open Sys2Proof.Laws

/-- Settles O20: the order is `rankOf_sorted`, the members are those of `mem_ranking`. -/
theorem wetRanking : Obligations.WetRanking := by
  intro s probes figures
  refine ⟨rankOf_sorted s, nodup_ranking_probes s, length_ranking_le s, fun i => ⟨?_, fun h => ?_⟩, fun x hx => ?_⟩
  · rintro ⟨x, hx, rfl⟩
    exact (contribution_eq_some.1 (mem_ranking.1 hx)).1
  · obtain ⟨x, hx⟩ := exists_contribution (p := i) (probes.1 i) (figures i) h
    have probe : x.probe = i := contribution_probe hx
    exact ⟨x, mem_ranking.2 (by rw [probe]; exact hx), probe⟩
  · obtain ⟨_, _, figure, zone, held⟩ := contribution_eq_some.1 (mem_ranking.1 hx)
    exact ⟨figure, zone, held⟩

end Sys2Proof.ChargeEstimate
end

section
/-! SUPPORT. The figures of an Estimate (R86 to R88): the CMC and spread of ranked figures, and the bounds of a ranking. -/

namespace Sys2Proof.ChargeEstimate

open Sys2Proof.Machine
open Sys2Proof.Safety
open Sys2Proof.Laws

theorem countsLeast_of_params {s : State} (h : ParamsSound s.params) :
    1 ≤ s.param .wetCount ∧ 1 ≤ s.param .chargeMinimum ∧ 1 ≤ s.param .zoneMinimum :=
  ⟨(h Param.wetCount.index).1, (h Param.chargeMinimum.index).1, (h Param.zoneMinimum.index).1⟩

/-! ### The CMC and the spread of ranked figures -/

section

variable {d w least : Nat} {xs : List Nat}

theorem cmcOf_few (h : xs.length < least + d) : cmcOf d w least xs = none := if_pos h

theorem spreadOf_few (h : xs.length < least + d) : spreadOf d least xs = none := if_pos h

/-- R86: enough figures left after the discard: their window is not empty and its rounded mean is the CMC. -/
theorem cmcOf_enough (some_counted : 1 ≤ w) (some_left : 1 ≤ least) (h : least + d ≤ xs.length) :
    ∃ c, cmcOf d w least xs = some c ∧ RoundedMean c ((xs.drop d).take w) := by
  have nonempty : (xs.drop d).take w ≠ [] := by
    rw [← List.length_pos_iff, List.length_take, List.length_drop]
    omega
  exact ⟨_, if_neg (Nat.not_lt.2 h), mean_rounded _ nonempty⟩

theorem roundedMean_of_cmcOf {c : Nat} (some_counted : 1 ≤ w) (some_left : 1 ≤ least)
    (h : cmcOf d w least xs = some c) : RoundedMean c ((xs.drop d).take w) := by
  have enough : least + d ≤ xs.length := by
    by_contra few
    rw [cmcOf_few (Nat.not_le.1 few)] at h
    cases h
  obtain ⟨c', hc', mean⟩ := cmcOf_enough some_counted some_left enough
  rw [hc'] at h
  cases h
  exact mean

/-- R87: the figure at the first rank kept less the last. -/
theorem spreadOf_enough (some_left : 1 ≤ least) (h : least + d ≤ xs.length) :
    spreadOf d least xs = some (xs.getD d 0 - xs.getLastD 0) := by
  have first : xs[d]? = some (xs.getD d 0) := by
    rw [List.getD_eq_getElem _ _ (by omega), List.getElem?_eq_getElem]
  have last : xs.getLast? = some (xs.getLastD 0) := by
    rw [List.getLastD_eq_getLast?, List.getLast?_eq_some_getLast (List.length_pos_iff.1 (by omega)), Option.getD_some]
  simp only [spreadOf, if_neg (Nat.not_lt.2 h), first, last]

/-- R89: a CMC of falling figures lies between the last and the first of them. -/
theorem cmcOf_between {c : Nat} (some_counted : 1 ≤ w) (some_left : 1 ≤ least) (falling : xs.Pairwise (· ≥ ·))
    (h : cmcOf d w least xs = some c) : ∃ a b, xs.getLast? = some a ∧ xs.head? = some b ∧ a ≤ c ∧ c ≤ b := by
  have mean := roundedMean_of_cmcOf some_counted some_left h
  have nonempty : xs ≠ [] := by
    rintro rfl
    exact mean.1 (by simp)
  refine ⟨xs.getLast nonempty, xs.head nonempty, List.getLast?_eq_some_getLast nonempty,
    List.head?_eq_some_head nonempty, mean_between mean (fun x hx => ?_) (fun x hx => ?_)⟩
  · exact falling.rel_getLast (List.mem_of_mem_drop (List.mem_of_mem_take hx))
  · exact falling.rel_head (List.mem_of_mem_drop (List.mem_of_mem_take hx))

end

/-! ### The figures of a ranking -/

theorem falling_figures {r : List RankEntry} (h : r.Pairwise Before) : (r.map (·.mc)).Pairwise (· ≥ ·) := by
  rw [List.pairwise_map]
  refine h.imp fun {x y} before => ?_
  rcases before with lower | ⟨equal, _⟩ <;> omega

theorem falling_zoneFigures {r : List RankEntry} (h : r.Pairwise Before) (z : Fin 8) :
    (zoneFigures r z).Pairwise (· ≥ ·) := falling_figures (h.filter _)

/-- R88: every contributor counts in one zone. -/
theorem sum_zoneFigures (r : List RankEntry) :
    ((List.finRange 8).map fun z => (zoneFigures r z).length).sum = r.length := by
  induction r with
  | nil => rfl
  | cons x xs ih =>
    have one : ∀ y : Fin 8, ((List.finRange 8).map fun z => if y == z then 1 else 0).sum = 1 := by decide
    have counts : (fun z => (zoneFigures (x :: xs) z).length) =
        fun z => (zoneFigures xs z).length + if x.zone == z then 1 else 0 := by
      funext z
      cases h : x.zone == z <;> simp [zoneFigures, h]
    rw [counts, List.sum_map_add, ih, one, List.length_cons]

theorem zoneCount_formEstimate (s : State) (z : Fin 8) :
    (formEstimate s).zoneCount[z] = (zoneFigures (formEstimate s).ranking z).length :=
  Vector.getElem_ofFn z.isLt

theorem zoneCmc_formEstimate (s : State) (z : Fin 8) : (formEstimate s).zoneCmc[z] =
    cmcOf (s.param .zoneDiscard) (s.param .wetCount) (s.param .zoneMinimum) (zoneFigures (formEstimate s).ranking z) :=
  Vector.getElem_ofFn z.isLt

end Sys2Proof.ChargeEstimate
end

section
/-! CERTIFICATE. The charge and zone figures of an Estimate (R86 to R90). -/

namespace Sys2Proof.ChargeEstimate

open Sys2Proof.Machine
open Sys2Proof.Safety
open Sys2Proof.Laws

/-- Settles O21: `cmcOf` and `spreadOf` on the ranking's figures, which fall from rank to rank (`falling_figures`). -/
theorem estimateFigures : Obligations.EstimateFigures := by
  intro s params e x d w dz figures
  obtain ⟨some_counted, some_left, some_in_zone⟩ := countsLeast_of_params params
  have length : e.ranking.length = x.length := (List.length_map _).symm
  have sorted : e.ranking.Pairwise Before := rankOf_sorted s
  refine ⟨rfl, length, List.countP_eq_length_filter, fun few => ?few, fun enough => ?enough, rfl, rfl, fun unranked => ?unranked,
    fun contributed => ?mean, fun z => ⟨?count, fun few => ?zoneFew, fun enough => ?zoneEnough⟩, ?total,
    fun c hc => cmcOf_between some_counted some_left (falling_figures sorted) hc, fun z c hc => ?zoneBetween⟩
  case few =>
    have few : x.length < s.param .chargeMinimum + d := by omega
    exact ⟨decide_eq_false (Nat.not_le.2 (by rw [← length] at few; exact few)), cmcOf_few few, spreadOf_few few⟩
  case enough =>
    have enough : s.param .chargeMinimum + d ≤ x.length := by omega
    exact ⟨decide_eq_true (by rw [← length] at enough; exact enough), cmcOf_enough some_counted some_left enough,
      spreadOf_enough some_left enough⟩
  case unranked =>
    exact if_pos (by rw [List.isEmpty_iff]; exact List.map_eq_nil_iff.1 unranked)
  case mean =>
    refine ⟨meanOf x, if_neg ?_, mean_rounded x contributed⟩
    rw [List.isEmpty_iff]
    exact mt List.map_eq_nil_iff.2 contributed
  case count => exact zoneCount_formEstimate s z
  case zoneFew =>
    have few : (figures z).length < s.param .zoneMinimum + dz := by omega
    exact (zoneCmc_formEstimate s z).trans (cmcOf_few few)
  case zoneEnough =>
    obtain ⟨c, hc, mean⟩ := cmcOf_enough (xs := figures z) (d := dz) some_counted some_in_zone (by omega)
    exact ⟨c, (zoneCmc_formEstimate s z).trans hc, mean⟩
  case total =>
    have counts : (fun z : Fin 8 => e.zoneCount[z]) = fun z => (zoneFigures e.ranking z).length :=
      funext (zoneCount_formEstimate s)
    rw [counts]
    exact sum_zoneFigures e.ranking
  case zoneBetween =>
    obtain ⟨a, b, last, first, lower, upper⟩ := cmcOf_between some_counted some_in_zone (falling_zoneFigures sorted z)
      ((zoneCmc_formEstimate s z).symm.trans hc)
    exact ⟨⟨a, List.mem_of_getLast? last, lower⟩, b, List.mem_of_head? first, upper⟩

end Sys2Proof.ChargeEstimate
end

section
/-! SUPPORT. The zone lag check (R92): the flags it leaves and the notices it raises, zone by zone and for all zones. -/

namespace Sys2Proof.ChargeEstimate

open Sys2Proof.Machine

theorem lagging_iff {s : State} {e : Estimate} {z : Fin 8} : lagging s e z = true ↔
    ∃ zc cc, e.zoneCmc[z] = some zc ∧ e.chargeCmc = some cc ∧ cc + s.param .zoneLagLimit < zc := by
  unfold lagging
  split
  · next zc cc hz hc => simp [hz, hc]
  · next absent => exact iff_of_false nofun fun ⟨zc, cc, hz, hc, _⟩ => absent zc cc hz hc

/-- R92: the ZONE_LAG notice of a zone. -/
def lagNotice (e : Estimate) (minute : Nat) (z : Fin 8) : Notice :=
  { kind := .zoneLag, subject := z.val, minute := minute, value1 := e.zoneCmc[z], value2 := e.chargeCmc }

/-- R92: `s` with other lag flags and the notices of some zones raised. -/
def flagged (e : Estimate) (s : State) (flags : Vector Bool 8) (zones : List (Fin 8)) : State :=
  { s with
    estimator := { s.estimator with lagFlags := flags }
    notices := zones.foldl (fun q z => q.add (lagNotice e s.uptime z)) s.notices }

/-- R92: the lag flags with those of the lagging zones among some set. -/
def raisedFlags (e : Estimate) (s : State) (zones : List (Fin 8)) : Vector Bool 8 :=
  Vector.ofFn fun z => s.estimator.lagFlags[z] || (decide (z ∈ zones) && lagging s e z)

theorem raisedFlags_get (e : Estimate) (s : State) (zones : List (Fin 8)) (z : Fin 8) :
    (raisedFlags e s zones)[z] = (s.estimator.lagFlags[z] || (decide (z ∈ zones) && lagging s e z)) :=
  Vector.getElem_ofFn z.isLt

/-- R92: the zones among some that lag with their flag clear. -/
def newlyLagging (e : Estimate) (s : State) (zones : List (Fin 8)) : List (Fin 8) :=
  zones.filter fun z => lagging s e z && !s.estimator.lagFlags[z]

theorem checkZoneLag_quiet {e : Estimate} {s : State} {z : Fin 8}
    (h : (lagging s e z && !s.estimator.lagFlags[z]) = false) : checkZoneLag e s z = s := by
  rw [checkZoneLag, h]
  rfl

theorem checkZoneLag_raises {e : Estimate} {s : State} {z : Fin 8}
    (h : (lagging s e z && !s.estimator.lagFlags[z]) = true) :
    checkZoneLag e s z = flagged e s (s.estimator.lagFlags.set z true) [z] := if_pos h

theorem flags_ext {v w : Vector Bool 8} (h : ∀ z : Fin 8, v[z] = w[z]) : v = w :=
  Vector.ext fun i hi => h ⟨i, hi⟩

theorem set_flag_get (v : Vector Bool 8) (y z : Fin 8) : (v.set y true)[z] = (decide (z = y) || v[z]) := by
  by_cases h : z = y
  · simp [h]
  · have ne : y.val ≠ z.val := fun same => h (Fin.ext same.symm)
    simp [h, Vector.getElem_set_ne _ _ ne]

/-- R92: the checks of distinct zones, each of which sees its own flag alone. -/
theorem foldl_checkZoneLag (e : Estimate) {zones : List (Fin 8)} (distinct : zones.Nodup) (s : State) :
    zones.foldl (checkZoneLag e) s = flagged e s (raisedFlags e s zones) (newlyLagging e s zones) := by
  induction zones generalizing s with
  | nil =>
    have same : raisedFlags e s [] = s.estimator.lagFlags := flags_ext fun z => by
      rw [raisedFlags_get, decide_eq_false (List.not_mem_nil), Bool.false_and, Bool.or_false]
    rw [same]
    rfl
  | cons y ys ih =>
    obtain ⟨fresh, distinct⟩ := List.nodup_cons.1 distinct
    rw [List.foldl_cons, ih distinct]
    cases quiet : lagging s e y && !s.estimator.lagFlags[y] with
    | false =>
      have flags : raisedFlags e s (y :: ys) = raisedFlags e s ys := flags_ext fun z => by
        rw [raisedFlags_get, raisedFlags_get]
        by_cases h : z = y
        · subst h
          cases hf : s.estimator.lagFlags[z] <;> simp_all
        · simp [h]
      rw [checkZoneLag_quiet quiet, flags, newlyLagging, newlyLagging, List.filter_cons, quiet]
      rfl
    | true =>
      obtain ⟨lags, -⟩ := Bool.and_eq_true_iff.1 quiet
      rw [checkZoneLag_raises quiet]
      have flags : raisedFlags e (flagged e s (s.estimator.lagFlags.set y true) [y]) ys =
          raisedFlags e s (y :: ys) := flags_ext fun z => by
        rw [raisedFlags_get, raisedFlags_get]
        show ((s.estimator.lagFlags.set y true)[z] || (decide (z ∈ ys) && lagging s e z)) = _
        rw [set_flag_get]
        by_cases h : z = y
        · simp [h, lags]
        · simp [h]
      have notices : newlyLagging e (flagged e s (s.estimator.lagFlags.set y true) [y]) ys = newlyLagging e s ys := by
        refine List.filter_congr fun z hz => ?_
        show (lagging s e z && !(s.estimator.lagFlags.set y true)[z]) = _
        have ne : z ≠ y := fun same => fresh (same ▸ hz)
        rw [set_flag_get, decide_eq_false ne, Bool.false_or]
      rw [flags, notices, newlyLagging, newlyLagging, List.filter_cons, quiet]
      rfl

end Sys2Proof.ChargeEstimate
end

section
/-! CERTIFICATE. A cycle close (R83, R91, R92). -/

namespace Sys2Proof.ChargeEstimate

open Sys2Proof.Machine
open Sys2Proof.Safety
open Sys2Proof.Laws

/-- Settles O22: `foldl_checkZoneLag` where the check is made, and the flags as they stand where it is not. -/
theorem estimateClosed : Obligations.EstimateClosed := by
  intro s
  by_cases checked : s.sequencer.state = .running ∧ (formEstimate s).sufficient = true
  · refine ⟨raisedFlags (formEstimate s) s (List.finRange 8), fun z => ?_, rfl, rfl, rfl, rfl, ?_⟩
    · rw [raisedFlags_get, Bool.or_eq_true, Bool.and_eq_true, decide_eq_true_eq, lagging_iff]
      simp only [List.mem_finRange, true_and, checked]
    · have raised : newlyLagging (formEstimate s) s (List.finRange 8) = (List.finRange 8).filter fun z =>
          (raisedFlags (formEstimate s) s (List.finRange 8))[z] && !s.estimator.lagFlags[z] := by
        refine List.filter_congr fun z hz => ?_
        rw [raisedFlags_get, decide_eq_true hz]
        cases s.estimator.lagFlags[z] <;> simp
      have check : zoneLagCheck (formEstimate s) (storeEstimate (formEstimate s) s) =
          (List.finRange 8).foldl (checkZoneLag (formEstimate s)) (storeEstimate (formEstimate s) s) := if_pos checked
      rw [closeEstimate, check, foldl_checkZoneLag _ (List.nodup_finRange 8), ← raised]
      rfl
  · refine ⟨s.estimator.lagFlags, fun z => ?_, rfl, rfl, rfl, rfl, ?_⟩
    · exact (or_iff_left fun ⟨running, sufficient, _⟩ => checked ⟨running, sufficient⟩).symm
    · have check : zoneLagCheck (formEstimate s) (storeEstimate (formEstimate s) s) =
          storeEstimate (formEstimate s) s := if_neg checked
      simp only [closeEstimate, check, Bool.and_not_self, List.filter_false, List.foldl_nil]
      rfl

end Sys2Proof.ChargeEstimate
end

section
/-! SUPPORT. What the Sequencer makes of an Estimate in each stage (R113, R116). -/

namespace Sys2Proof.ChargeEstimate

open Sys2Proof.Machine
open Sys2Proof.Laws

theorem isCondition_iff (r : StepRecord) : r.isCondition = true ↔ r.condition ≠ .time := bne_iff_ne

/-! ### The first stage -/

section

variable {e : Estimate} {s : State}

theorem starvationStage_idle (h : s.sequencer.engaged = false) : starvationStage e s = s := by
  simp [starvationStage, h]

variable {r : StepRecord}

theorem starvationStage_time (hr : s.sequencer.currentStep = some r) (ht : r.condition = .time) :
    starvationStage e s = s := by
  simp [starvationStage, hr, StepRecord.isCondition, ht]

theorem starvationStage_condition (h : s.sequencer.engaged = true) (hr : s.sequencer.currentStep = some r)
    (ht : r.condition ≠ .time) : starvationStage e s = updateStarvation e.sufficient s :=
  if_pos (by simp [h, hr, (isCondition_iff r).2 ht])

end

theorem changeHold_sequencer (c : Causes) (st : ScheduleState) (s : State) :
    (changeHold c st s).sequencer = { s.sequencer with causes := c, state := st } := by
  unfold changeHold
  dsimp only
  split
  · rfl
  · exact (calm_tellZones _).sequencer

/-- R111: a cause removed leaves the step and its elapsed count alone. -/
theorem removeCause_step (h : HoldCause) (s : State) :
    (removeCause h s).sequencer.currentStep = s.sequencer.currentStep ∧
      (removeCause h s).sequencer.elapsed = s.sequencer.elapsed := by
  unfold removeCause
  split
  · rw [changeHold_sequencer]
    exact ⟨rfl, rfl⟩
  · exact ⟨rfl, rfl⟩

/-! ### The second stage -/

section

variable {e : Estimate} {q : Sequencer}

theorem advanceDue_idle (h : q.engaged = false) : advanceDue e q = false := by
  simp only [Sequencer.engaged, Bool.or_eq_false_iff] at h
  rw [advanceDue, h.1, Bool.false_and]

variable {r : StepRecord} (hr : q.currentStep = some r)

include hr

theorem advanceDue_unmet (h : conditionMet r e = false) : advanceDue e q = false := by
  simp [advanceDue, hr, h]

theorem advanceDue_iff (ht : r.condition ≠ .time) :
    advanceDue e q = true ↔ q.state = .running ∧ r.minimum ≤ q.elapsed ∧ conditionMet r e = true := by
  simp [advanceDue, hr, (isCondition_iff r).2 ht]

end

section

variable {e : Estimate} {r : StepRecord}

theorem conditionMet_time (h : r.condition = .time) : conditionMet r e = false := by
  simp [conditionMet, h]

theorem conditionMet_absent (cmc : e.chargeCmc = none) (spread : e.spread = none) : conditionMet r e = false := by
  unfold conditionMet
  split <;> simp [cmc, spread]

/-- R116: the condition compares the figure it names with the threshold. -/
theorem conditionMet_iff {v t : Nat} (threshold : r.threshold = some t)
    (figure : (r.condition = .mcBelow ∧ e.chargeCmc = some v) ∨ (r.condition = .spreadBelow ∧ e.spread = some v)) :
    conditionMet r e = true ↔ v ≤ t := by
  rcases figure with ⟨condition, figure⟩ | ⟨condition, figure⟩ <;>
    simp [conditionMet, threshold, condition, figure]

end

/-! ### An Estimate handed over -/

section

variable {e : Estimate} {s : State}

theorem takeEstimate_stays (h : advanceDue e (starvationStage e s).sequencer = false) :
    takeEstimate e s = starvationStage e s := if_neg (by rw [h]; nofun)

theorem takeEstimate_idle (h : s.sequencer.engaged = false) : takeEstimate e s = s := by
  have stage : starvationStage e s = s := starvationStage_idle h
  rw [takeEstimate_stays (by rw [stage]; exact advanceDue_idle h), stage]

variable {r : StepRecord} (hr : s.sequencer.currentStep = some r)

include hr

theorem takeEstimate_time (ht : r.condition = .time) : takeEstimate e s = s := by
  have stage : starvationStage e s = s := starvationStage_time hr ht
  rw [takeEstimate_stays (by rw [stage]; exact advanceDue_unmet hr (conditionMet_time ht)), stage]

variable (he : s.sequencer.engaged = true) (ht : r.condition ≠ .time)

include he ht

/-- R113: an INSUFFICIENT Estimate raises the streak and at the limit adds STARVED. -/
theorem takeEstimate_insufficient (h : e.sufficient = false) (cmc : e.chargeCmc = none) (spread : e.spread = none) :
    takeEstimate e s = updateStarvation false s := by
  have stage : starvationStage e s = updateStarvation false s := by
    rw [starvationStage_condition he hr ht, h]
  refine (takeEstimate_stays ?_).trans stage
  have unmet : ∀ r, conditionMet r e = false := fun r => conditionMet_absent cmc spread
  simp [advanceDue, unmet]

/-- R116: a SUFFICIENT Estimate clears the streak and STARVED, and then tests the condition. -/
theorem takeEstimate_sufficient {v t : Nat} (h : e.sufficient = true) (threshold : r.threshold = some t)
    (figure : (r.condition = .mcBelow ∧ e.chargeCmc = some v) ∨ (r.condition = .spreadBelow ∧ e.spread = some v)) :
    let u := removeCause .starved (s.setStreak 0)
    takeEstimate e s = if u.sequencer.state = .running ∧ r.minimum ≤ s.sequencer.elapsed ∧ v ≤ t then
      exitStep .condition u else u := by
  intro u
  have stage : starvationStage e s = u := by rw [starvationStage_condition he hr ht, h]; rfl
  obtain ⟨step, elapsed⟩ := removeCause_step .starved (s.setStreak 0)
  have due : advanceDue e u.sequencer = true ↔
      u.sequencer.state = .running ∧ r.minimum ≤ s.sequencer.elapsed ∧ v ≤ t := by
    rw [advanceDue_iff (step.trans hr) ht, conditionMet_iff threshold figure, elapsed]
    rfl
  simp only [takeEstimate, stage, due]

end

end Sys2Proof.ChargeEstimate
end

section
/-! SUPPORT. The exit of a step (R106, R117): the state it leaves, with the notices and reports in their order. -/

namespace Sys2Proof.ChargeEstimate

open Sys2Proof.Machine
open Sys2Proof.Laws

theorem scheduleNotice_eq (s : State) : scheduleNotice s =
    raiseNotice .scheduleState s.sequencer.state.code (some s.sequencer.causes.code) none s := rfl

/-- R117: the notices of an advance, STEP_CHANGE and behind it SCHEDULE_STATE where the entry removed STARVED. -/
theorem advanceTo_eq (i : Nat) (r : StepRecord) (why : ExitReason) (s : State) : advanceTo i r why s =
    let told := raiseNotice .stepChange (i + 1) (some i) (some why.code)
      (enterStep (i + 1) 0 r (s.sequencer.working.getD r.goal) s)
    if entryFrees s.sequencer r = true then
      raiseNotice .scheduleState (entryState s.sequencer r).code (some (entryCauses s.sequencer r).code) none told
    else told := by
  simp only [advanceTo, scheduleNotice_eq, (calm_raiseNotice _ _ _ _ _).sequencer, enterStep_sequencer]
  rfl

end Sys2Proof.ChargeEstimate
end

section
/-! CERTIFICATE. An Estimate taken by the Sequencer (R113, R116) and the exit of a step (R117). -/

namespace Sys2Proof.ChargeEstimate

open Sys2Proof.Machine
open Sys2Proof.Safety
open Sys2Proof.Laws

/-- Settles O31: the cases of `takeEstimate` on a condition step and outside one, and the two outcomes of an exit. -/
theorem estimateTaken : Obligations.EstimateTaken := by
  refine ⟨fun e s => ⟨takeEstimate_idle, fun r => takeEstimate_time, fun r he hr ht =>
    ⟨takeEstimate_insufficient hr he ht, fun v t => takeEstimate_sufficient hr he ht⟩⟩, fun why i s hi =>
    ⟨fun r w more hr hw => ?next, fun last => ?last⟩⟩
  case next =>
    have working : (appendHistory (exitEntry s i why) s).sequencer.working.getD r.goal = w := by
      show s.sequencer.working.getD r.goal = w
      rw [hw, Option.getD_some]
    rw [exitStep_next why hi more hr, advanceTo_eq, working]
    cases why <;> rfl
  case last =>
    rw [exitStep_last why hi last]
    cases why <;> rfl

end Sys2Proof.ChargeEstimate
end

section
/-! SUPPORT. The bytes of READ_ESTIMATE (R95) and READ_RANKING (R96), field by field. -/

namespace Sys2Proof.ChargeEstimate

open Sys2Proof.Machine
open Sys2Proof.Safety
open Sys2Proof.Laws
open Sys2Proof.MoistureConversion

/-! ### Blocks of one width -/

theorem length_opt1 (x : Option Nat) : (opt1 x).length = 1 := by cases x <;> rfl

theorem length_opt2 (x : Option Nat) : (opt2 x).length = 2 := by cases x <;> rfl

/-- Blocks of one width behind other fields and in front of others: the byte of the block that the offset falls in. -/
theorem byteAt_block {α : Type} {block : α → List Byte} {w : Nat} (width : ∀ x, (block x).length = w) {xs : List α}
    {i j : Nat} {x : α} (hx : xs[i]? = some x) (hj : j < w) (head tail : List Byte) :
    byteAt (head ++ (xs.flatMap block ++ tail)) (head.length + (w * i + j)) = byteAt (block x) j := by
  have within : w * i + j < (xs.flatMap block).length := by
    obtain ⟨hi, -⟩ := List.getElem?_eq_some_iff.1 hx
    have blocks : w * (i + 1) ≤ w * xs.length := Nat.mul_le_mul_left w hi
    rw [length_flatMap_of_width width]
    rw [Nat.mul_succ] at blocks
    omega
  rw [byteAt_append_right, byteAt, List.getD_append _ _ _ _ within]
  exact byteAt_flatMap width hx hj

theorem finRange_get {n : Nat} (z : Fin n) : (List.finRange n)[z.val]? = some z := by simp

/-! ### READ_ESTIMATE -/

/-- R95: the fields of the reply in front of the zones'. -/
def chargeBytes (e : Option Estimate) : List Byte :=
  b1 (match e with | none => 0 | some x => if x.sufficient then 1 else 2) ++
  optWord (e.map (·.sequence)) ++ optWord (e.map (·.cycle)) ++ opt3 (e.map (·.uptime)) ++
  opt3 (e.bind (·.chargeMinute)) ++ opt1 (e.map (·.n)) ++ opt1 (e.map (·.heldCount)) ++
  opt2 (e.bind (·.chargeCmc)) ++ opt2 (e.bind (·.spread)) ++ opt2 (e.bind (·.wettest)) ++
  opt2 (e.bind (·.driest)) ++ opt2 (e.bind (·.mean))

/-- R95: a field of every zone, in ascending zone. -/
def zoneBytes (field : Fin 8 → List Byte) : List Byte := (List.finRange 8).flatMap field

/-- R95: the lag flags, bit `z` for zone `z`. -/
def lagByte (lag : Vector Bool 8) : Byte := byteOfBits fun k => lag.toList.getD k false

theorem estimateBytes_eq (e : Option Estimate) (lag : Vector Bool 8) : estimateBytes e lag =
    chargeBytes e ++ (zoneBytes (fun z => opt1 (e.map (·.zoneCount[z]))) ++
      (zoneBytes (fun z => opt2 (e.bind (·.zoneCmc[z]))) ++ [lagByte lag])) := by
  simp only [← List.append_assoc]
  rfl

/-- The fields in front of the zones' stand at their offsets. -/
structure ChargeFields (d : List Byte) (e : Option Estimate) : Prop where
  absent       : e = none → byteAt d 0 = 0
  status       : ∀ x, e = some x → byteAt d 0 = if x.sufficient then 1 else 2
  sequence     : Holds2 d 1 (e.map (·.sequence.toNat))
  cycle        : Holds2 d 3 (e.map (·.cycle.toNat))
  uptime       : Holds3 d 5 (e.map (·.uptime))
  chargeMinute : Holds3 d 8 (e.bind (·.chargeMinute))
  n            : Holds1 d 11 (e.map (·.n))
  heldCount    : Holds1 d 12 (e.map (·.heldCount))
  chargeCmc    : Holds2 d 13 (e.bind (·.chargeCmc))
  spread       : Holds2 d 15 (e.bind (·.spread))
  wettest      : Holds2 d 17 (e.bind (·.wettest))
  driest       : Holds2 d 19 (e.bind (·.driest))
  mean         : Holds2 d 21 (e.bind (·.mean))

theorem chargeBytes_fields (e : Option Estimate) :
    (chargeBytes e).length = 23 ∧ ∀ tail, ChargeFields (chargeBytes e ++ tail) e := by
  obtain ⟨_, _, sequence, hSequence⟩ := optWord_holds (e.map (·.sequence))
  obtain ⟨_, _, cycle, hCycle⟩ := optWord_holds (e.map (·.cycle))
  obtain ⟨_, _, _, uptime, hUptime⟩ := opt3_holds (e.map (·.uptime))
  obtain ⟨_, _, _, chargeMinute, hChargeMinute⟩ := opt3_holds (e.bind (·.chargeMinute))
  obtain ⟨_, n, hN⟩ := opt1_holds (e.map (·.n))
  obtain ⟨_, heldCount, hHeldCount⟩ := opt1_holds (e.map (·.heldCount))
  obtain ⟨_, _, chargeCmc, hChargeCmc⟩ := opt2_holds (e.bind (·.chargeCmc))
  obtain ⟨_, _, spread, hSpread⟩ := opt2_holds (e.bind (·.spread))
  obtain ⟨_, _, wettest, hWettest⟩ := opt2_holds (e.bind (·.wettest))
  obtain ⟨_, _, driest, hDriest⟩ := opt2_holds (e.bind (·.driest))
  obtain ⟨_, _, mean, hMean⟩ := opt2_holds (e.bind (·.mean))
  rw [Option.map_map] at hSequence hCycle
  unfold chargeBytes
  rw [sequence, cycle, uptime, chargeMinute, n, heldCount, chargeCmc, spread, wettest, driest, mean]
  simp only [b1, List.cons_append, List.nil_append]
  exact ⟨rfl, fun tail => {
    absent := fun h => by rw [h]; rfl
    status := fun x h => by
      rw [h]
      show BitVec.ofNat 8 (if x.sufficient then 1 else 2) = _
      cases x.sufficient <;> rfl
    sequence := hSequence _ _ rfl rfl
    cycle := hCycle _ _ rfl rfl
    uptime := hUptime _ _ rfl rfl rfl
    chargeMinute := hChargeMinute _ _ rfl rfl rfl
    n := hN _ _ rfl
    heldCount := hHeldCount _ _ rfl
    chargeCmc := hChargeCmc _ _ rfl rfl
    spread := hSpread _ _ rfl rfl
    wettest := hWettest _ _ rfl rfl
    driest := hDriest _ _ rfl rfl
    mean := hMean _ _ rfl rfl }⟩

theorem estimateBytes_charge (e : Option Estimate) (lag : Vector Bool 8) : ChargeFields (estimateBytes e lag) e := by
  rw [estimateBytes_eq]
  exact (chargeBytes_fields e).2 _

theorem zoneBytes_hold1 (field : Fin 8 → Option Nat) (z : Fin 8) (head tail : List Byte) :
    Holds1 (head ++ (zoneBytes (fun z => opt1 (field z)) ++ tail)) (head.length + z.val) (field z) := by
  obtain ⟨_, byte, holds⟩ := opt1_holds (field z)
  have read := byteAt_block (fun z => length_opt1 (field z)) (finRange_get z) (j := 0) (by decide) head tail
  rw [byte, Nat.one_mul, Nat.add_zero] at read
  exact holds _ _ read

theorem zoneBytes_hold2 (field : Fin 8 → Option Nat) (z : Fin 8) (head tail : List Byte) :
    Holds2 (head ++ (zoneBytes (fun z => opt2 (field z)) ++ tail)) (head.length + 2 * z.val) (field z) := by
  obtain ⟨_, _, bytes, holds⟩ := opt2_holds (field z)
  have read {j : Nat} (hj : j < 2) := byteAt_block (fun z => length_opt2 (field z)) (finRange_get z) hj head tail
  rw [bytes] at read
  exact holds _ _ (read (j := 0) (by decide)) (read (j := 1) (by decide))

theorem lagByte_bit (lag : Vector Bool 8) (z : Fin 8) : (lagByte lag).getLsbD z.val = lag[z] := by
  rw [lagByte, byteOfBits_bit _ _ z.isLt, List.getD_eq_getElem _ _ (by simp)]
  rfl

/-- The fields of the zones stand behind the others: the counts, the CMCs and the lag flags. -/
structure ZoneFields (d : List Byte) (e : Option Estimate) (lag : Vector Bool 8) : Prop where
  length : d.length = 48
  count  : ∀ z : Fin 8, Holds1 d (23 + z.val) (e.map (·.zoneCount[z]))
  cmc    : ∀ z : Fin 8, Holds2 d (31 + 2 * z.val) (e.bind (·.zoneCmc[z]))
  lags   : ∀ z : Fin 8, (byteAt d 47).getLsbD z.val = lag[z]

theorem estimateBytes_zones (e : Option Estimate) (lag : Vector Bool 8) : ZoneFields (estimateBytes e lag) e lag := by
  have counts : (zoneBytes fun z => opt1 (e.map (·.zoneCount[z]))).length = 8 :=
    length_flatMap_of_width (fun _ => length_opt1 _) _
  have cmcs : (zoneBytes fun z => opt2 (e.bind (·.zoneCmc[z]))).length = 16 :=
    length_flatMap_of_width (fun _ => length_opt2 _) _
  obtain ⟨charge, -⟩ := chargeBytes_fields e
  rw [estimateBytes_eq]
  refine ⟨?length, fun z => ?count, fun z => ?cmc, fun z => ?lags⟩
  case length =>
    rw [List.length_append, List.length_append, List.length_append, charge, counts, cmcs]
    rfl
  case count =>
    rw [← charge]
    exact zoneBytes_hold1 (fun z => e.map (·.zoneCount[z])) z _ _
  case cmc =>
    have front : 31 = (chargeBytes e ++ zoneBytes fun z => opt1 (e.map (·.zoneCount[z]))).length := by
      rw [List.length_append, charge, counts]
    rw [← List.append_assoc, front]
    exact zoneBytes_hold2 (fun z => e.bind (·.zoneCmc[z])) z _ _
  case lags =>
    have front : 47 = (chargeBytes e ++ (zoneBytes (fun z => opt1 (e.map (·.zoneCount[z]))) ++
        zoneBytes fun z => opt2 (e.bind (·.zoneCmc[z])))).length + 0 := by
      rw [List.length_append, List.length_append, charge, counts, cmcs]
    rw [← List.append_assoc (zoneBytes _), ← List.append_assoc, front, byteAt_append_right]
    exact lagByte_bit lag z

theorem readEstimateBody_payload {p : List Byte} (h : p ≠ []) (s : State) : readEstimateBody p s = .error .badLength := by
  cases p with
  | nil => exact absurd rfl h
  | cons => rfl

/-! ### READ_RANKING -/

theorem readRankingBody_badLength {p : List Byte} (h : p.length ≠ 1) (s : State) :
    readRankingBody p s = .error .badLength := by
  match p, h with
  | [], _ => rfl
  | [_], h => exact absurd rfl h
  | _ :: _ :: _, _ => rfl

theorem readRankingBody_range {r : Byte} (h : 191 < r.toNat) (s : State) : readRankingBody [r] s = .error .range := if_pos h

theorem readRankingBody_reads {r : Byte} (h : r.toNat ≤ 191) (s : State) :
    readRankingBody [r] s = done s (rankingBytes s.estimator.current r.toNat) := if_neg (Nat.not_lt.2 h)

theorem b1_toNat (r : Byte) : b1 r.toNat = [r] := by rw [b1, ProbePolling.ofNat_eq_of_toNat rfl]

/-- R96: without an Estimate the sequence is absent, n is 0 and there are no entries. -/
theorem rankingBytes_none (r : Byte) : rankingBytes none r.toNat = [0, 0xFF, 0xFF, 0, r] := by
  simp only [rankingBytes, b1_toNat, Option.map_none, Option.getD_none, List.drop_nil, List.take_nil]
  rfl

/-- The fields of a ranking entry stand at their offsets. -/
structure RankFields (d : List Byte) (k : Nat) (x : RankEntry) : Prop where
  probe : (byteAt d k).toNat = x.probe.val
  mc    : Holds2 d (k + 1) (some x.mc)
  zone  : (byteAt d (k + 3)).toNat = x.zone.val
  held  : byteAt d (k + 4) = if x.held then 1 else 0

theorem length_rankBytes (x : RankEntry) : (rankBytes x).length = 5 := rfl

/-- An entry read wherever its five bytes stand. -/
theorem rankFields_of_bytes {d : List Byte} {k : Nat} {x : RankEntry}
    (read : ∀ j < 5, byteAt d (k + j) = byteAt (rankBytes x) j) : RankFields d k x := by
  obtain ⟨_, _, mc, hMc⟩ := b2_holds x.mc
  rw [rankBytes, mc] at read
  refine ⟨?_, hMc _ _ (read 1 (by decide)) (read 2 (by decide)), ?_, ?_⟩
  · rw [← Nat.add_zero k, read 0 (by decide)]
    exact Nat.mod_eq_of_lt (x.probe.isLt.trans (by decide))
  · rw [read 3 (by decide)]
    exact Nat.mod_eq_of_lt (x.zone.isLt.trans (by decide))
  · rw [read 4 (by decide)]
    show BitVec.ofNat 8 x.held.toNat = _
    cases x.held <;> rfl

/-- The fields of a page of the ranking stand at their offsets. -/
structure PageFields (d : List Byte) (e : Estimate) (r : Byte) : Prop where
  length   : d.length = 5 + 5 * min 8 (e.ranking.length - r.toNat)
  isThere  : byteAt d 0 = 1
  sequence : byteAt d 1 ++ byteAt d 2 = e.sequence
  n        : Holds1 d 3 (some e.n)
  first    : byteAt d 4 = r
  entries  : ∀ (i : Nat) (x : RankEntry), i < 8 → e.ranking[r.toNat + i]? = some x → RankFields d (5 + 5 * i) x

theorem rankingBytes_fields (e : Estimate) (r : Byte) : PageFields (rankingBytes (some e) r.toNat) e r := by
  obtain ⟨high, low, sequence, hSequence⟩ := w2_holds e.sequence
  obtain ⟨count, n, hN⟩ := b1_holds e.n
  have bytes : rankingBytes (some e) r.toNat =
      flag1 true ++ w2 e.sequence ++ b1 e.n ++ b1 r.toNat ++ ((e.ranking.drop r.toNat).take 8).flatMap rankBytes := rfl
  rw [bytes, sequence, n, b1_toNat]
  refine ⟨?_, rfl, (hSequence _ _ rfl rfl).2, hN _ _ rfl, rfl, fun i x hi hx => rankFields_of_bytes fun j hj => ?_⟩
  · rw [List.length_append, length_flatMap_of_width length_rankBytes, List.length_take, List.length_drop]
    rfl
  · have entry : ((e.ranking.drop r.toNat).take 8)[i]? = some x := by
      rw [List.getElem?_take_of_lt hi, List.getElem?_drop, hx]
    have read := byteAt_block length_rankBytes entry hj (flag1 true ++ [high, low] ++ [count] ++ [r]) []
    rw [List.append_nil] at read
    rw [Nat.add_assoc]
    exact read

end Sys2Proof.ChargeEstimate
end

section
/-! CERTIFICATE. READ_ESTIMATE and READ_RANKING (R95, R96). -/

namespace Sys2Proof.ChargeEstimate

open Sys2Proof.Machine
open Sys2Proof.Safety
open Sys2Proof.Laws

/-- Settles O42: the bytes of `estimateBytes_charge`, `estimateBytes_zones` and `rankingBytes_fields`. -/
theorem estimateReadings : Obligations.EstimateReadings := by
  refine ⟨fun f rest s h => ⟨fun hp => ?_, fun hp => ?estimate⟩,
    fun f rest s h => ⟨fun hp => ?_, fun r hp => ⟨fun out => ?_, fun first unformed => ?unformed, fun e first formed => ?page⟩⟩⟩
  · exact congrArg _ (serveRequest_refused h (readEstimateBody_payload hp _))
  case estimate =>
    have zones := estimateBytes_zones s.estimator.current s.estimator.lagFlags
    have charge := estimateBytes_charge s.estimator.current s.estimator.lagFlags
    exact ⟨_, congrArg _ (serveRequest_read h (by rw [hp]; rfl)), zones.length, charge.absent, charge.status,
      charge.sequence, charge.cycle, charge.uptime, charge.chargeMinute, charge.n, charge.heldCount, charge.chargeCmc,
      charge.spread, charge.wettest, charge.driest, charge.mean, fun z => ⟨zones.count z, zones.cmc z, zones.lags z⟩⟩
  · exact congrArg _ (serveRequest_refused h (readRankingBody_badLength hp _))
  · exact congrArg _ (serveRequest_refused (why := .range) h (by rw [hp]; exact readRankingBody_range out _))
  case unformed =>
    refine congrArg _ (serveRequest_read h ?_)
    rw [hp, ← rankingBytes_none, ← unformed]
    exact readRankingBody_reads first _
  case page =>
    have page := rankingBytes_fields e r
    refine ⟨_, congrArg _ (serveRequest_read h ?_), page.length, page.isThere, page.sequence, page.n, page.first,
      fun i x hi hx => ?_⟩
    · rw [hp, ← formed]
      exact readRankingBody_reads first _
    · obtain ⟨probe, mc, zone, held⟩ := page.entries i x hi hx
      rw [Nat.add_right_comm] at mc zone held
      exact ⟨probe, mc, zone, held⟩

end Sys2Proof.ChargeEstimate
end

section
/-! SUPPORT. The hold causes and the schedule through the commands (R100, R102, R111, R114, R120): what leaves the
Sequencer alone, what keeps it sound, and every command in turn. -/

namespace Sys2Proof.DryingSchedule

open Sys2Proof.Machine
open Sys2Proof.Safety
open Sys2Proof.Laws

/-- What a step keeps of the Sequencer: the two conditions together, since a step exit needs both. -/
def ScheduleFollows (s t : State) : Prop :=
  CausesSound s.sequencer → ScheduleSound s.sequencer → CausesSound t.sequencer ∧ ScheduleSound t.sequencer

theorem ScheduleFollows.trans {s t u : State} (h : ScheduleFollows s t) (k : ScheduleFollows t u) :
    ScheduleFollows s u := fun hc hs => by
  obtain ⟨causes, schedule⟩ := h hc hs
  exact k causes schedule

/-- A state with the very same Sequencer. -/
theorem ScheduleFollows.of_eq {s t : State} (h : t.sequencer = s.sequencer := by rfl) : ScheduleFollows s t := by
  intro hc hs
  rw [h]
  exact ⟨hc, hs⟩

theorem scheduleFollows_powerUp (straps : Straps) (levels : PairLevels) (s : State) :
    ScheduleFollows s (powerUp straps levels s) :=
  fun _ _ => ⟨ProbePolling.reset_causes, ProbePolling.reset_schedule⟩

theorem scheduleFollows_minuteTick (s : State) : ScheduleFollows s (minuteTick s) := (minuteTick_sound s).2

/-! ### The Kiln Line leaves the Sequencer alone -/

theorem admitFrame_sequencer (f : KilnFrame) (s : State) : (admitFrame f s).sequencer = s.sequencer := by
  unfold admitFrame
  split <;> rfl

theorem kilnDelivered_sequencer (f : Frame) (noisy : Bool) (s : State) :
    (kilnDelivered f noisy s).sequencer = s.sequencer := by
  unfold kilnDelivered
  split
  · rfl
  · split
    · exact admitFrame_sequencer _ _
    · rfl

theorem applyEvent_kiln_sequencer (e : AssemblerEvent) (s : State) : (applyEvent .kiln e s).sequencer = s.sequencer := by
  cases e with
  | quiet => rfl
  | discarded r => rfl
  | delivered f noisy => exact kilnDelivered_sequencer f noisy s

theorem breakReport_sequencer (l : Line) (c : RxChar) (s : State) : (breakReport l c s).sequencer = s.sequencer := by
  unfold breakReport
  split <;> rfl

theorem receiveCharacter_kiln_sequencer (c : RxChar) (s : State) :
    (receiveCharacter .kiln c s).sequencer = s.sequencer := by
  unfold receiveCharacter
  split
  · rw [breakReport_sequencer, feedCharacter, applyEvent_kiln_sequencer]
    rfl
  · rfl

theorem gapExpired_kiln_sequencer (s : State) : (gapExpired .kiln s).sequencer = s.sequencer := by
  unfold gapExpired
  split <;> rfl

theorem handOverReply_sequencer (s : State) : (handOverReply s).sequencer = s.sequencer := by
  unfold handOverReply
  split <;> rfl

/-! ### The three lines -/

theorem scheduleFollows_receiveCharacter (l : Line) (c : RxChar) (s : State) :
    ScheduleFollows s (receiveCharacter l c s) := by
  cases l with
  | field => exact (whole_receiveCharacter .field c s).sound
  | drive => exact (whole_receiveCharacter .drive c s).sound
  | kiln => exact .of_eq (receiveCharacter_kiln_sequencer c s)

theorem scheduleFollows_receiveBreak (l : BreakLine) (s : State) : ScheduleFollows s (receiveBreak l s) := by
  cases l with
  | pair p =>
    rw [receiveBreak_pair]
    exact scheduleFollows_receiveCharacter _ _ s
  | kiln order =>
    rcases receiveBreak_kiln order s with h | ⟨c, -, -, -, h⟩
    · rw [h]
      exact scheduleFollows_receiveCharacter _ _ s
    · rw [h]
      refine .of_eq ?_
      rw [admitAfterBreak, admitFrame_sequencer]
      exact receiveCharacter_kiln_sequencer breakChar s

theorem scheduleFollows_gapExpired (l : Line) (s : State) : ScheduleFollows s (gapExpired l s) := by
  cases l with
  | field => exact (whole_gapExpired .field s).sound
  | drive => exact (whole_gapExpired .drive s).sound
  | kiln => exact .of_eq (gapExpired_kiln_sequencer s)

theorem scheduleFollows_startTransmit (l : PairLine) (s : State) :
    ScheduleFollows s (startTransmit l (beforeTransmit l s)) := by
  refine ScheduleFollows.trans (t := beforeTransmit l s) ?_ (whole_startTransmit l _).sound
  cases l with
  | field => exact .of_eq
  | drive => exact .of_eq (calm_openExchange s).sequencer

/-! ### The front frame taken and answered (R160) -/

theorem placeReply_sequencer (f : KilnFrame) (r : Reply) (s : State) :
    (placeReply f r s).sequencer = s.sequencer := by
  unfold placeReply
  split <;> rfl

/-- A frame taken and answered keeps what the bodies carried out keep. -/
theorem scheduleFollows_serveFront {accepts : KilnFrame → Bool} {body : KilnFrame → State → Answer}
    (h : ∀ f s x, body f s = .ok x → ScheduleFollows s x.state) (s : State) :
    ScheduleFollows s (serveFront accepts body s) := by
  unfold serveFront
  split
  · exact .of_eq
  · next f rest _ =>
    split
    · have taken : ScheduleFollows s (s.setHandler (s.handler.taken rest)) := .of_eq
      refine taken.trans ?_
      dsimp only
      generalize s.setHandler (s.handler.taken rest) = t
      cases hb : body f t with
      | ok x => exact (h f t x hb).trans (.of_eq (placeReply_sequencer _ _ _))
      | error why => exact .of_eq (placeReply_sequencer _ _ _)
    · exact .of_eq

theorem scheduleFollows_serveRequest {k : Byte} {body : List Byte → State → Answer} (h : BodyKept body) (s : State) :
    ScheduleFollows s (serveRequest k body s) :=
  scheduleFollows_serveFront (fun f s x hx => (h f.payload s x hx).sound) s

/-! ### Every command -/

theorem exec_scheduleFollows (c : Instr) (s : State) : ∃ t, exec c s = .next t ∧ ScheduleFollows s t := by
  have request {k : Byte} {body : List Byte → State → Answer} (h : BodyKept body) :
      ∃ t, Host.Outcome.next (serveRequest k body s) = (.next t : Host.Outcome State Machine.Fault Refusal) ∧
        ScheduleFollows s t := ⟨_, rfl, scheduleFollows_serveRequest h s⟩
  cases c with
  | powerUp straps levels => exact ⟨_, rfl, scheduleFollows_powerUp straps levels s⟩
  | characterReceived l w =>
    show ∃ t, execCharacterReceived l w s = .next t ∧ _
    unfold execCharacterReceived
    split
    · exact ⟨_, rfl, .of_eq⟩
    · exact ⟨_, rfl, scheduleFollows_receiveCharacter l _ s⟩
  | breakCharacter l => exact ⟨_, rfl, scheduleFollows_receiveBreak l s⟩
  | spacingSpellStart l =>
    show ∃ t, execSpacingSpellStart l s = .next t ∧ _
    unfold execSpacingSpellStart
    split
    · exact ⟨_, rfl, .of_eq⟩
    · exact ⟨_, rfl, .of_eq (calm_setUnit l _ s).sequencer⟩
  | spacingSpellEnd l => exact ⟨_, rfl, .of_eq (calm_setUnit l _ s).sequencer⟩
  | gapLimitExpiry l => exact ⟨_, rfl, scheduleFollows_gapExpired l s⟩
  | stuckLimitExpiry l order => exact ⟨_, rfl, (plant_stuckExpired l order s).whole.sound⟩
  | transmitStart l => exact ⟨_, rfl, scheduleFollows_startTransmit l s⟩
  | transmitEnd l => exact ⟨_, rfl, .of_eq (calm_endTransmit l s).sequencer⟩
  | replyTransmitEnd => exact ⟨_, rfl, .of_eq⟩
  | replyHandover => exact ⟨_, rfl, .of_eq (handOverReply_sequencer s)⟩
  | kilnLineMarkingReturn => exact ⟨_, rfl, .of_eq⟩
  | cycleTimerExpiry =>
    show ∃ t, execCycleTimerExpiry s = .next t ∧ _
    unfold execCycleTimerExpiry
    split
    · exact ⟨_, rfl, .of_eq⟩
    · exact ⟨_, rfl, (whole_cycleTimerExpired s).sound⟩
  | scanAnswerTimeout => exact ⟨_, rfl, (whole_failWaiting .noAnswer s).sound⟩
  | drivePeriodExpiry => exact ⟨_, rfl, .of_eq (calm_drivePeriod s).sequencer⟩
  | driveAnswerTimeout => exact ⟨_, rfl, .of_eq (calm_noAnswer s).sequencer⟩
  | minuteTick => exact ⟨_, rfl, scheduleFollows_minuteTick s⟩
  | stepLimit =>
    show ∃ t, execStepLimit s = .next t ∧ _
    unfold execStepLimit
    split
    · exact ⟨_, rfl, scheduleFollows_minuteTick s⟩
    · exact ⟨_, rfl, .of_eq⟩
  | fanReversal =>
    show ∃ t, execFanReversal s = .next t ∧ _
    unfold execFanReversal
    split
    · exact ⟨_, rfl, scheduleFollows_minuteTick s⟩
    · exact ⟨_, rfl, .of_eq⟩
  | zoneSet => exact ⟨_, rfl, scheduleFollows_serveFront (fun f s x hx => (kept_window f s x hx).sound) s⟩
  | unknownRequest => exact ⟨_, rfl, scheduleFollows_serveFront (fun _ _ _ h => by cases h) s⟩
  | identify => exact request kept_identify
  | readLineStatus => exact request kept_readLineStatus
  | setConfig => exact request kept_setConfig
  | readConfig => exact request kept_readConfig
  | setAddressSlot => exact request kept_setAddressSlot
  | lineRestart => exact request kept_lineRestart
  | loadCurve => exact request kept_loadCurve
  | readCurve => exact request kept_readCurve
  | mapProbe => exact request kept_mapProbe
  | unmapProbes => exact request kept_unmapProbes
  | excludeProbes => exact request kept_excludeProbes
  | includeProbes => exact request kept_includeProbes
  | readProbe => exact request kept_readProbe
  | readNode => exact request kept_readNode
  | fieldStart => exact request kept_fieldStart
  | fieldHalt => exact request kept_fieldHalt
  | readEstimate => exact request kept_readEstimate
  | readRanking => exact request kept_readRanking
  | loadStep => exact request kept_loadStep
  | readStep => exact request kept_readStep
  | setStepCount => exact request kept_setStepCount
  | start => exact request kept_start
  | resume => exact request kept_resume
  | hold => exact request kept_hold
  | release => exact request kept_release
  | skip => exact request kept_skip
  | abort => exact request kept_abort
  | chargeReset => exact request kept_chargeReset
  | readSchedule => exact request kept_readSchedule
  | readHistory => exact request kept_readHistory
  | setEnvelope => exact request kept_setEnvelope
  | readEnvelope => exact request kept_readEnvelope
  | setZoneMode => exact request kept_setZoneMode
  | readZone => exact request kept_readZone
  | readFault => exact request kept_readFault
  | clearFaults => exact request kept_clearFaults
  | collectNotices => exact request kept_collectNotices

end Sys2Proof.DryingSchedule
end

section
/-! CERTIFICATE. Every step keeps the hold causes and the schedule sound. -/

namespace Sys2Proof.DryingSchedule

open Sys2Proof.Machine
open Sys2Proof.Safety

/-- Settles O59: an idle step changes nothing, and each command keeps the Sequencer sound (`exec_scheduleFollows`). -/
theorem scheduleKept : Obligations.ScheduleKept := by
  intro s t hc hs h
  unfold step at h
  split at h
  · cases h
    exact ⟨hc, hs⟩
  · next c rest _ =>
    obtain ⟨u, hu, follows⟩ := exec_scheduleFollows c { s with pending := rest }
    obtain rfl : u = t := Host.Outcome.next.inj (hu.symm.trans h)
    exact follows hc hs

end Sys2Proof.DryingSchedule
end

section
/-! SUPPORT. The ramp (R122), and the minute tick in each schedule state (R114, R115, R124, R144). -/

namespace Sys2Proof.DryingSchedule

open Sys2Proof.Machine
open Sys2Proof.Safety
open Sys2Proof.Laws

/-! ### The ramp -/

theorem rampAt_noRate {r : StepRecord} (h : r.rampRate = 0) (b : Int) (m : Nat) : rampAt r b m = r.goal := if_pos h

theorem rampAt_rising {r : StepRecord} {b : Int} (h : r.rampRate ≠ 0) (hb : b ≤ r.goal) (m : Nat) :
    rampAt r b m = min r.goal (b + (r.rampRate * m / 6 : Nat)) := by
  simp only [rampAt, if_neg h, if_pos hb]
  omega

theorem rampAt_falling {r : StepRecord} {b : Int} (h : r.rampRate ≠ 0) (hb : r.goal ≤ b) (m : Nat) :
    rampAt r b m = max r.goal (b - (r.rampRate * m / 6 : Nat)) := by
  simp only [rampAt, if_neg h]
  split <;> omega

theorem ramp_mono (rate m : Nat) : rate * m / 6 ≤ rate * (m + 1) / 6 :=
  Nat.div_le_div_right (Nat.mul_le_mul_left rate (Nat.le_succ m))

/-! ### The minute tick -/

theorem fanFalls_iff (r : StepRecord) (e : Nat) : fanFalls r e = true ↔ 0 < r.fanInterval ∧ r.fanInterval ∣ e := by
  simp [fanFalls, Nat.dvd_iff_mod_eq_zero, Nat.pos_iff_ne_zero]

theorem limitTick_below {q : Sequencer} {r : StepRecord} (hr : q.currentStep = some r)
    (hm : q.elapsed + 1 < r.maximum) : limitTick q = false := by
  simp [limitTick, hr, hm]

theorem limitTick_reached {q : Sequencer} {r : StepRecord} (hq : q.state = .running) (hr : q.currentStep = some r)
    (hm : r.maximum ≤ q.elapsed + 1) : limitTick q = true := by
  simp [limitTick, hq, hr, hm]

theorem fanTick_falls {q : Sequencer} {r : StepRecord} (hq : q.state = .running) (hr : q.currentStep = some r)
    (hm : q.elapsed + 1 < r.maximum) (hf : fanFalls r (q.elapsed + 1) = true) : fanTick q = true := by
  simp [fanTick, hq, limitTick_below hr hm, hr, hf]

theorem limitReason_eq (r : StepRecord) :
    limitReason r = if r.condition = .time then .timeDone else .timeLimit := by
  unfold limitReason StepRecord.isCondition
  cases h : r.condition <;> rfl

/-- R114, R122: a tick in RUNNING short of the limit, before the fan test. -/
theorem minuteTick_below {s : State} {r : StepRecord} (hq : s.sequencer.state = .running)
    (hr : s.sequencer.currentStep = some r) (hm : s.sequencer.elapsed + 1 < r.maximum) :
    Machine.minuteTick s = fanTest r ((uptimeTick s).setSequencer (s.sequencer.ticked.ramped r)) := by
  rw [minuteTick_running hq]
  exact runningTick_below (s := (uptimeTick s).setSequencer s.sequencer.ticked) hr hm

/-- R115: a tick in RUNNING that reaches the limit. -/
theorem minuteTick_limit {s : State} {r : StepRecord} (hq : s.sequencer.state = .running)
    (hr : s.sequencer.currentStep = some r) (hm : r.maximum ≤ s.sequencer.elapsed + 1) :
    Machine.minuteTick s = exitStep (limitReason r) ((uptimeTick s).setSequencer s.sequencer.ticked) := by
  rw [minuteTick_running hq]
  exact runningTick_limit (s := (uptimeTick s).setSequencer s.sequencer.ticked) hr hm

theorem ramped_from_basis {q : Sequencer} {b : Int} (r : StepRecord) (h : q.basis = some b) :
    q.ramped r = { q with working := some (rampAt r b q.elapsed) } := by
  unfold Sequencer.ramped
  rw [h, Option.getD_some]

theorem fanTest_quiet {r : StepRecord} {s : State} (h : fanFalls r s.sequencer.elapsed = false) : fanTest r s = s :=
  if_neg (Bool.not_eq_true _ ▸ h)

/-- R124: the direction changes and the zones are told. -/
theorem fanTest_falls {r : StepRecord} {s : State} (h : fanFalls r s.sequencer.elapsed = true) :
    fanTest r s = tellZones (s.setSequencer { s.sequencer with fan := s.sequencer.fan.other }) := if_pos h

theorem exec_stepLimit {s : State} (h : limitTick s.sequencer = true) :
    exec .stepLimit s = .next (Machine.minuteTick s) := if_pos h

theorem exec_fanReversal {s : State} (h : fanTick s.sequencer = true) :
    exec .fanReversal s = .next (Machine.minuteTick s) := if_pos h

/-! ### The exit of a step whose successor frees nothing, and of the last step (R106, R117) -/

/-- R106: an entry that removes no cause keeps the schedule state and tells the zones once. -/
theorem enterStep_stays {s : State} {r : StepRecord} (h : entryFrees s.sequencer r = false) (i e : Nat) (b : Int) :
    enterStep i e r b s = tellZones { s with
      sequencer := { s.sequencer with
        stepIndex := some i, elapsed := e, entryMinute := s.sequencer.chargeMinute, basis := some b
        working := some (rampAt r b e), streak := 0 }
      estimator := { s.estimator with lagFlags := Vector.replicate 8 false } } := by
  have causes : entryCauses s.sequencer r = s.sequencer.causes := by rw [entryCauses, h]; rfl
  have state : entryState s.sequencer r = s.sequencer.state := by rw [entryState, h]; rfl
  simp only [enterStep, Sequencer.entered, causes, state, if_true]
  rfl

theorem entryFrees_none {q : Sequencer} (h : q.causes = noCauses) (r : StepRecord) : entryFrees q r = false := by
  rw [entryFrees, h]
  exact Bool.and_false _

/-- R117: an exit before the last step, in a schedule without hold causes. -/
theorem exitStep_advances {s : State} {i : Nat} {r : StepRecord} {w : Int} (why : ExitReason)
    (hc : s.sequencer.causes = noCauses) (hi : s.sequencer.stepIndex = some i) (more : i + 1 < s.sequencer.stepCount)
    (hr : s.sequencer.stepAt (i + 1) = some r) (hw : s.sequencer.working = some w) :
    exitStep why s = raiseNotice .stepChange (i + 1) (some i) (some why.code) (tellZones { s with
      sequencer := { s.sequencer with
        history := s.sequencer.history ++ [exitEntry s i why], stepIndex := some (i + 1), elapsed := 0
        entryMinute := s.sequencer.chargeMinute, basis := some w, working := some (rampAt r w 0), streak := 0 }
      estimator := { s.estimator with lagFlags := Vector.replicate 8 false } }) := by
  let t := appendHistory (exitEntry s i why) s
  have frees : entryFrees t.sequencer r = false := entryFrees_none hc r
  have working : t.sequencer.working.getD r.goal = w := Option.getD_eq_iff.2 (.inl hw)
  rw [exitStep_next why hi more hr, ChargeEstimate.advanceTo_eq, frees, working, enterStep_stays frees]
  rfl

/-- R117: the exit of the last step, in a schedule without hold causes. -/
theorem exitStep_ends {s : State} {i : Nat} (why : ExitReason) (hc : s.sequencer.causes = noCauses)
    (hi : s.sequencer.stepIndex = some i) (done : s.sequencer.stepCount ≤ i + 1) :
    exitStep why s = tellZones (raiseNotice .scheduleState 4 (some 0) none
      (raiseNotice .stepChange 255 (some i) (some why.code) { s with
        sequencer := { s.sequencer with state := .ended, history := s.sequencer.history ++ [exitEntry s i why] } })) := by
  have ended : endSchedule i why (appendHistory (exitEntry s i why) s) = tellZones (raiseNotice .scheduleState 4 (some 0) none
      (raiseNotice .stepChange 255 (some i) (some why.code) { s with sequencer := { s.sequencer with
        state := .ended, history := s.sequencer.history ++ [exitEntry s i why], causes := noCauses } })) := rfl
  rw [exitStep_last why hi done, ended, ← hc]

end Sys2Proof.DryingSchedule
end

section
/-! CERTIFICATE. The ramp, the minute tick and the limit of a step. -/

namespace Sys2Proof.DryingSchedule

open Sys2Proof.Machine
open Sys2Proof.Safety
open Sys2Proof.Laws

/-- Settles O28: without a rate, and on either side of the target. -/
theorem rampRules : Obligations.RampRules := by
  intro r b m g
  have mono := ramp_mono r.rampRate m
  have goal : r.goal = g := rfl
  refine ⟨fun h => rampAt_noRate h b m, fun h hb => rampAt_rising h hb m, fun h hb => rampAt_falling h hb m, ?_⟩
  by_cases h : r.rampRate = 0
  · rw [rampAt_noRate h, rampAt_noRate h, goal]
    omega
  · rcases le_total b r.goal with hb | hb
    · rw [rampAt_rising h hb, rampAt_rising h hb, goal]
      omega
    · rw [rampAt_falling h hb, rampAt_falling h hb, goal]
      omega

/-- Settles O30: the tick makes the step exit (`minuteTick_limit`), and the exit is that of O31; in RUNNING the cause set
is empty, so the entry frees nothing. -/
theorem stepLimit : Obligations.StepLimit := by
  intro s i r w sound hq hi hr hw hm charge reason entry u
  have current : s.sequencer.currentStep = some r := by rw [Sequencer.currentStep, hi, Option.bind_some, hr]
  have limit : exec .stepLimit s = .next (Machine.minuteTick s) := exec_stepLimit (limitTick_reached hq current hm)
  have why : limitReason r = reason := limitReason_eq r
  have causes : s.sequencer.causes = noCauses := causes_empty sound (by rw [hq]; decide)
  have ticked := minuteTick_limit hq current hm
  refine ⟨limit.symm, fun r' more hr' => limit.trans (congrArg _ (ticked.trans ?next)),
    fun done => limit.trans (congrArg _ (ticked.trans ?last))⟩
  case next =>
    rw [exitStep_advances (s := (uptimeTick s).setSequencer s.sequencer.ticked) _ causes hi more hr' hw, why]
    rfl
  case last =>
    rw [exitStep_ends (s := (uptimeTick s).setSequencer s.sequencer.ticked) _ causes hi done, why]
    rfl

/-- Settles O29, state by state; in RUNNING by the fan test. -/
theorem minuteTick : Obligations.MinuteTick := by
  intro s up charge
  refine ⟨fun idle => congrArg _ (minuteTick_idle idle), fun held => congrArg _ (minuteTick_held held),
    fun r b hq hr hb hm => ?running⟩
  intro q
  have tick := minuteTick_below hq hr hm
  rw [ramped_from_basis r (by exact hb)] at tick
  refine ⟨fun stays => ?stays, fun some_interval falls => ?falls⟩
  case stays =>
    have quiet : fanFalls r (s.sequencer.elapsed + 1) = false := by
      rw [Bool.eq_false_iff, ne_eq, fanFalls_iff]
      rintro ⟨positive, divides⟩
      exact stays.elim positive.ne' (absurd divides)
    rw [fanTest_quiet quiet] at tick
    exact congrArg _ tick
  case falls =>
    have falls : fanFalls r (s.sequencer.elapsed + 1) = true := (fanFalls_iff r _).2 ⟨some_interval, falls⟩
    rw [fanTest_falls falls] at tick
    have told := tick.trans (congrArg tellZones (a₂ := { s with
      uptime := up, sequencer := { q with fan := match q.fan with | .forward => .reverse | .reverse => .forward } }) rfl)
    exact ⟨congrArg Host.Outcome.next told, exec_fanReversal (fanTick_falls hq hr hm falls)⟩

end Sys2Proof.DryingSchedule
end

section
/-! SUPPORT. The hold causes (R111), and HOLD, RELEASE, SKIP and ABORT (R107 to R109). -/

namespace Sys2Proof.DryingSchedule

open Sys2Proof.Machine
open Sys2Proof.Safety
open Sys2Proof.Laws

/-! ### A hold cause added or removed -/

theorem addCause_idle {s : State} (h : s.sequencer.engaged = false) (c : HoldCause) : addCause c s = s := by
  simp [addCause, h]

theorem removeCause_idle {s : State} (h : s.sequencer.engaged = false) (c : HoldCause) : removeCause c s = s := by
  simp [removeCause, h]

theorem addCause_present {s : State} {c : HoldCause} (h : s.sequencer.causes.has c = true) : addCause c s = s := by
  simp [addCause, h]

theorem removeCause_absent {s : State} {c : HoldCause} (h : s.sequencer.causes.has c = false) :
    removeCause c s = s := by
  simp [removeCause, h]

theorem removeCause_present {s : State} {c : HoldCause} (he : s.sequencer.engaged = true)
    (h : s.sequencer.causes.has c = true) : removeCause c s = changeHold (s.sequencer.causes.put c false)
      (if (s.sequencer.causes.put c false).isEmpty then .running else .held) s := by
  simp only [removeCause, he, h, Bool.and_self, if_true]

/-- R111: a change of the cause set within one schedule state. -/
theorem changeHold_same {s : State} {st : ScheduleState} (h : s.sequencer.state = st) (c : Causes) :
    changeHold c st s = raiseNotice .scheduleState st.code (some c.code) none
      { s with sequencer := { s.sequencer with causes := c, state := st } } := if_pos h

/-- R111: a change of the cause set that changes the schedule state. -/
theorem changeHold_other {s : State} {st : ScheduleState} (h : s.sequencer.state ≠ st) (c : Causes) :
    changeHold c st s = tellZones (raiseNotice .scheduleState st.code (some c.code) none
      { s with sequencer := { s.sequencer with causes := c, state := st } }) := if_neg h

theorem changeHold_sequencer (c : Causes) (st : ScheduleState) (s : State) :
    (changeHold c st s).sequencer = { s.sequencer with causes := c, state := st } := by
  by_cases h : s.sequencer.state = st
  · rw [changeHold_same h]
    rfl
  · rw [changeHold_other h, (calm_tellZones _).sequencer]
    rfl

theorem code_of_isEmpty {c : Causes} (h : c.isEmpty = true) : c.code = 0 := by
  obtain ⟨manual, starved, fieldFault, driveFault⟩ := c
  simp only [Causes.isEmpty, Bool.not_eq_true', Bool.or_eq_false_iff] at h
  simp [Causes.code, h]

theorem engaged_of_running {q : Sequencer} (h : q.state = .running) : q.engaged = true := (engaged_iff q).2 (.inl h)

theorem engaged_of_held {q : Sequencer} (h : q.state = .held) : q.engaged = true := (engaged_iff q).2 (.inr h)

/-! ### Requests taken in RUNNING and HELD alone (R107) -/

section

variable {act : State → State} {report : State → List Byte} {p : List Byte} {s : State}

theorem engagedBody_payload (h : p ≠ []) : engagedBody act report p s = .error .badLength := by
  cases p with
  | nil => exact absurd rfl h
  | cons => rfl

theorem engagedBody_busy (h : s.sequencer.engaged = false) : engagedBody act report [] s = .error .busy := by
  simp [engagedBody, h]

theorem engagedBody_done (h : s.sequencer.engaged = true) : engagedBody act report [] s = done (act s) (report (act s)) := by
  simp [engagedBody, h]

end

/-- R107: a request taken in RUNNING and HELD is refused for a payload, and BUSY in every other schedule state. -/
theorem engagedRequest_refused {k : Byte} {act : State → State} {report : State → List Byte} {s : State}
    {f : KilnFrame} {rest : List KilnFrame} (h : Asked s k f rest) :
    (f.payload ≠ [] → serveRequest k (engagedBody act report) s = Refused s f rest 2) ∧
    (f.payload = [] → s.sequencer.engaged = false → serveRequest k (engagedBody act report) s = Refused s f rest 4) := by
  refine ⟨fun hp => ?_, fun hp idle => ?_⟩
  · exact serveRequest_refused (why := .badLength) h (engagedBody_payload hp)
  · exact serveRequest_refused (why := .busy) h (by rw [hp]; exact engagedBody_busy idle)

section

variable {k : Byte} {act : State → State} {report : State → List Byte} {s : State} {f : KilnFrame}
  {rest : List KilnFrame} {data : List Byte}

/-- R107: a request taken in RUNNING and HELD and answered with a report on the state it leaves. -/
theorem engagedRequest_done (h : Asked s k f rest) (hp : f.payload = []) (engaged : s.sequencer.engaged = true)
    (handler : (act (Taken s rest)).handler = (Taken s rest).handler) (hd : report (act (Taken s rest)) = data) :
    serveRequest k (engagedBody act report) s = Answered s f rest data (act (Taken s rest)) := by
  refine serveRequest_done h ?_ handler
  rw [hp, engagedBody_done (by exact engaged), hd]

/-- R107: a request taken in RUNNING and HELD that finds nothing to change. -/
theorem engagedRequest_keeps (h : Asked s k f rest) (hp : f.payload = []) (engaged : s.sequencer.engaged = true)
    (keeps : act (Taken s rest) = Taken s rest) (hd : report (Taken s rest) = data) :
    serveRequest k (engagedBody act report) s = Answered s f rest data s := by
  refine serveRequest_read h ?_
  rw [hp, engagedBody_done (by exact engaged), keeps, hd]

end

/-! ### What they report -/

theorem heldBytes_same (s : State) (b : Bool) (h : s.sequencer.causes.manual = b) : heldBytes s =
    [BitVec.ofNat 8 s.sequencer.state.code, BitVec.ofNat 8 ({ s.sequencer.causes with manual := b } : Causes).code] := by
  subst h
  rfl

theorem heldBytes_hold {s : State} (engaged : s.sequencer.engaged = true) (h : s.sequencer.causes.manual = false) :
    heldBytes (addCause .manual s) =
      [3, BitVec.ofNat 8 ({ s.sequencer.causes with manual := true } : Causes).code] := by
  rw [heldBytes, LineFraming.addCause_absent engaged (by exact h), changeHold_sequencer]
  rfl

theorem heldBytes_release {s : State} (engaged : s.sequencer.engaged = true) (h : s.sequencer.causes.manual = true) :
    heldBytes (removeCause .manual s) =
      [if s.sequencer.causes.starved ∨ s.sequencer.causes.fieldFault ∨ s.sequencer.causes.driveFault then 3 else 2,
        BitVec.ofNat 8 ({ s.sequencer.causes with manual := false } : Causes).code] := by
  rw [heldBytes, removeCause_present engaged (by exact h), changeHold_sequencer]
  generalize s.sequencer.causes = c
  obtain ⟨manual, starved, fieldFault, driveFault⟩ := c
  cases starved <;> cases fieldFault <;> cases driveFault <;> rfl

theorem abortSchedule_eq (s : State) : abortSchedule s = tellZones (raiseNotice .scheduleState 5 (some 0) none
    { s with sequencer := { s.sequencer with state := .aborted, causes := noCauses } }) := rfl

theorem stateByte_abort (s : State) : Machine.stateByte (abortSchedule s) = [5] := by
  rw [Machine.stateByte, abortSchedule_eq, (calm_tellZones _).sequencer]
  rfl

theorem skippedBytes_next {s : State} {i : Nat} {r : StepRecord} (engaged : s.sequencer.engaged = true)
    (hi : s.sequencer.stepIndex = some i) (more : i + 1 < s.sequencer.stepCount)
    (hr : s.sequencer.stepAt (i + 1) = some r) : skippedBytes (exitStep .skipped s) =
      [3, BitVec.ofNat 8 (entryState s.sequencer r).code, BitVec.ofNat 8 (i + 1)] := by
  have running : entryState s.sequencer r ≠ .ended := by
    rcases entryState_engaged r engaged with h | h <;> rw [h] <;> decide
  rw [skippedBytes, exitStep_next _ hi more hr, advanceTo_sequencer]
  show [_] ++ [_] ++ b1 (if entryState s.sequencer r = .ended then 255 else i + 1) = _
  rw [if_neg running]
  rfl

theorem skippedBytes_last {s : State} {i : Nat} (hi : s.sequencer.stepIndex = some i)
    (last : s.sequencer.stepCount ≤ i + 1) : skippedBytes (exitStep .skipped s) = [3, 4, 255] := by
  rw [skippedBytes, exitStep_last _ hi last, endSchedule_sequencer]
  rfl

end Sys2Proof.DryingSchedule
end

section
/-! CERTIFICATE. Hold causes added and removed, and HOLD, RELEASE, SKIP and ABORT. -/

namespace Sys2Proof.DryingSchedule

open Sys2Proof.Machine
open Sys2Proof.Safety
open Sys2Proof.Laws

/-- Settles O46: the rules of the cause set, then the three requests, each refused by `engagedRequest_refused` and taken
by `engagedRequest_done`. -/
theorem holdReleaseAbort : Obligations.HoldReleaseAbort := by
  refine ⟨fun h s => ?causes, fun f rest s => ?requests⟩
  case causes =>
    refine ⟨fun idle => ⟨addCause_idle idle h, removeCause_idle idle h⟩, addCause_present, removeCause_absent,
      fun absent running => ?hold, fun absent held => ?again, fun present held empty => ?free, fun present held more => ?less⟩
    case hold =>
      rw [LineFraming.addCause_absent (engaged_of_running running) absent, changeHold_other (by rw [running]; decide)]
      rfl
    case again =>
      rw [LineFraming.addCause_absent (engaged_of_held held) absent, changeHold_same held]
      rfl
    case free =>
      rw [removeCause_present (engaged_of_held held) present, empty, if_pos rfl,
        changeHold_other (by rw [held]; decide), code_of_isEmpty empty]
      rfl
    case less =>
      rw [removeCause_present (engaged_of_held held) present, more, if_neg (by decide), changeHold_same held]
      rfl
  case requests =>
    intro c code now
    refine ⟨fun asked => ?hold, fun asked => ?release, fun asked => ?abort⟩
    case hold =>
      obtain ⟨payload, busy⟩ := engagedRequest_refused (act := addCause .manual) (report := heldBytes) asked
      exact ⟨fun hp => congrArg _ (payload hp), fun hp idle => congrArg _ (busy hp idle),
        fun hp engaged present => congrArg _ (engagedRequest_keeps asked hp engaged
          (addCause_present (by exact present)) (heldBytes_same _ true present)),
        fun hp engaged absent => congrArg _ (engagedRequest_done asked hp engaged (plant_addCause .manual _).handler
          (heldBytes_hold engaged absent))⟩
    case release =>
      obtain ⟨payload, busy⟩ := engagedRequest_refused (act := removeCause .manual) (report := heldBytes) asked
      exact ⟨fun hp => congrArg _ (payload hp), fun hp idle => congrArg _ (busy hp idle),
        fun hp engaged absent => congrArg _ (engagedRequest_keeps asked hp engaged
          (removeCause_absent (by exact absent)) (heldBytes_same _ false absent)),
        fun hp engaged present => congrArg _ (engagedRequest_done asked hp engaged
          (plant_removeCause .manual _).handler (heldBytes_release engaged present))⟩
    case abort =>
      obtain ⟨payload, busy⟩ := engagedRequest_refused (act := abortSchedule) (report := Machine.stateByte) asked
      refine ⟨fun hp => congrArg _ (payload hp), fun hp idle => congrArg _ (busy hp idle), fun hp engaged => ?_⟩
      have taken := engagedRequest_done asked hp engaged (whole_abortSchedule _).handler (stateByte_abort _)
      rw [abortSchedule_eq] at taken
      exact congrArg Host.Outcome.next taken

/-- Settles O47: the exit of O31 in the state with the frame taken. -/
theorem skipStep : Obligations.SkipStep := by
  intro f rest s asked
  obtain ⟨payload, busy⟩ := engagedRequest_refused (act := exitStep .skipped) (report := skippedBytes) asked
  refine ⟨fun hp => congrArg _ (payload hp), fun hp idle => congrArg _ (busy hp idle), fun i w hp engaged hi hw => ?_⟩
  obtain ⟨next, last⟩ := ChargeEstimate.estimateTaken.2 .skipped i (Taken s rest) hi
  have handler := (outer_exitStep .skipped (Taken s rest)).handler
  refine ⟨fun r' more hr' => ?next, fun done => ?last⟩
  case next =>
    have taken := engagedRequest_done asked hp engaged handler (skippedBytes_next engaged hi more hr')
    rw [next r' w more hr' hw] at taken
    exact congrArg Host.Outcome.next taken
  case last =>
    have taken := engagedRequest_done asked hp engaged handler (skippedBytes_last hi done)
    rw [last done] at taken
    exact congrArg Host.Outcome.next taken

end Sys2Proof.DryingSchedule
end

section
/-! SUPPORT. LOAD_STEP (R99 to R101) and SET_STEP_COUNT (R102): their checks, and the record of a payload. -/

namespace Sys2Proof.DryingSchedule

open Sys2Proof.Machine
open Sys2Proof.Safety
open Sys2Proof.Laws

/-! ### The record of a payload -/

theorem stepKind_ofCode_iff {n : Nat} {k : StepKind} : StepKind.ofCode n = some k ↔ k.code = n := by
  constructor
  · intro h
    unfold StepKind.ofCode at h
    split at h <;> cases h <;> rfl
  · rintro rfl
    cases k <;> rfl

theorem stepCondition_ofCode_iff {n : Nat} {c : StepCondition} : StepCondition.ofCode n = some c ↔ c.code = n := by
  constructor
  · intro h
    unfold StepCondition.ofCode at h
    split at h <;> cases h <;> rfl
  · rintro rfl
    cases c <;> rfl

theorem stepKind_of_range {n : Nat} (h : 1 ≤ n ∧ n ≤ 5) : ∃ k : StepKind, k.code = n := by
  obtain ⟨low, high⟩ := h
  interval_cases n
  exacts [⟨.heatUp, rfl⟩, ⟨.dry, rfl⟩, ⟨.equalize, rfl⟩, ⟨.condition, rfl⟩, ⟨.cool, rfl⟩]

theorem stepKind_range (k : StepKind) : 1 ≤ k.code ∧ k.code ≤ 5 := by cases k <;> decide

theorem stepCondition_of_range {n : Nat} (h : n ≤ 2) : ∃ c : StepCondition, c.code = n := by
  interval_cases n
  exacts [⟨.time, rfl⟩, ⟨.mcBelow, rfl⟩, ⟨.spreadBelow, rfl⟩]

/-- R99: a condition a kind may carry, by the codes. -/
theorem conditionAllowed_iff (k : StepKind) (c : StepCondition) : conditionAllowed k c = true ↔
    c.code = 0 ∨ (c.code = 1 ∧ k.code = 2) ∨ (c.code = 2 ∧ k.code = 3) := by
  cases k <;> cases c <;> decide

/-- R99, R100: the payload of a LOAD_STEP passes every range check, read off its offsets. -/
def StepFits (p : List Byte) : Prop :=
  let kind := (byteAt p 1).toNat
  let cond := (byteAt p 6).toNat
  (1 ≤ kind ∧ kind ≤ 5) ∧ (cond = 0 ∨ (cond = 1 ∧ kind = 2) ∨ (cond = 2 ∧ kind = 3)) ∧
    (200 ≤ u16At p 2 ∧ u16At p 2 ≤ 1100) ∧ u16At p 4 ≤ 400 ∧ u16At p 13 ≤ 600 ∧ u16At p 15 ≤ 1440 ∧
    1 ≤ u16At p 11 ∧ u16At p 9 ≤ u16At p 11 ∧ (cond = 0 → u16At p 9 = 0) ∧ (cond ≠ 0 → u16At p 7 ≤ 1200)

/-- R99: the bounds a time step and a condition step put on the minimum and the threshold. -/
theorem stepLimits_iff (p : List Byte) (k : StepKind) (c : StepCondition) :
    (if (stepRecordOf p k c).condition = .time then (stepRecordOf p k c).minimum == 0
      else (stepRecordOf p k c).threshold.all (· ≤ 1200)) = true ↔
    (c.code = 0 → u16At p 9 = 0) ∧ (c.code ≠ 0 → u16At p 7 ≤ 1200) := by
  cases c <;> simp [stepRecordOf, StepCondition.code]

theorem stepRecordOk_iff {p : List Byte} {k : StepKind} {c : StepCondition} (hk : k.code = (byteAt p 1).toNat)
    (hc : c.code = (byteAt p 6).toNat) : stepRecordOk (stepRecordOf p k c) = true ↔ StepFits p := by
  rw [stepRecordOk, Bool.and_eq_true, stepLimits_iff]
  simp only [Bool.and_eq_true, decide_eq_true_eq]
  simp only [stepRecordOf, conditionAllowed_iff, StepFits, ← hk, ← hc, stepKind_range k, true_and, and_assoc]

theorem loadStepRecord_fits {p : List Byte} (h : StepFits p) : ∃ (k : StepKind) (c : StepCondition),
    k.code = (byteAt p 1).toNat ∧ c.code = (byteAt p 6).toNat ∧ loadStepRecord p = some (stepRecordOf p k c) := by
  obtain ⟨kind, cond, -⟩ := id h
  obtain ⟨k, hk⟩ := stepKind_of_range kind
  obtain ⟨c, hc⟩ := stepCondition_of_range (n := (byteAt p 6).toNat) (by omega)
  refine ⟨k, c, hk, hc, ?_⟩
  simp only [loadStepRecord, stepKind_ofCode_iff.2 hk, stepCondition_ofCode_iff.2 hc, (stepRecordOk_iff hk hc).2 h, if_true]

theorem loadStepRecord_unfit {p : List Byte} (h : ¬ StepFits p) : loadStepRecord p = none := by
  unfold loadStepRecord
  split
  · next k c hk hc =>
    rw [if_neg (mt (stepRecordOk_iff (stepKind_ofCode_iff.1 hk) (stepCondition_ofCode_iff.1 hc)).1 h)]
  · rfl

theorem threshold_eq {c : StepCondition} {n : Nat} (h : c.code = n) (t : Nat) :
    (if c = .time then none else some t) = if n = 0 then none else some t := by
  subst h
  cases c <;> rfl

/-! ### LOAD_STEP -/

theorem stepReached_iff (q : Sequencer) (i : Nat) :
    stepReached q i = true ↔ q.engaged = true ∧ ∃ k, q.stepIndex = some k ∧ i ≤ k := by
  simp [stepReached, Option.any_eq_true]

section

variable {p : List Byte} {s : State}

theorem loadStepBody_badLength (h : p.length ≠ 17) : loadStepBody p s = .error .badLength := if_neg h

variable (long : p.length = 17)

include long

theorem loadStepBody_range (h : indexOf 24 (byteAt p 0) = none ∨ loadStepRecord p = none) :
    loadStepBody p s = .error .range := by
  rw [loadStepBody, if_pos long]
  rcases h with h | h
  · simp only [h]
  · cases indexOf 24 (byteAt p 0) <;> simp only [h]

variable {i : Fin 24} {r : StepRecord} (index : indexOf 24 (byteAt p 0) = some i) (record : loadStepRecord p = some r)

include index record

theorem loadStepBody_busy (h : stepReached s.sequencer i.val = true) : loadStepBody p s = .error .busy := by
  simp only [loadStepBody, long, index, record, h, if_true]

theorem loadStepBody_loads (h : stepReached s.sequencer i.val = false) :
    loadStepBody p s = done (storeStep i r s) (b1 i.val ++ b1 s.sequencer.stepCount) := by
  simp only [loadStepBody, long, index, record, h, if_true, Bool.false_eq_true, if_false]

end

/-! ### SET_STEP_COUNT -/

theorem stepCountOk_iff (q : Sequencer) (n : Nat) : stepCountOk q n = true ↔
    1 ≤ n ∧ n ≤ 24 ∧ (∀ i < n, q.stepAt i ≠ none) ∧ (q.engaged = true → ∀ k, q.stepIndex = some k → k < n) := by
  have above : (!(q.engaged && q.stepIndex.any fun k => decide (n ≤ k))) = true ↔
      (q.engaged = true → ∀ k, q.stepIndex = some k → k < n) := by
    cases q.engaged <;> cases q.stepIndex <;> simp
  simp only [stepCountOk, Bool.and_eq_true, decide_eq_true_eq, List.all_eq_true, List.mem_range,
    Option.isSome_iff_ne_none, above, and_assoc]

theorem setStepCountBody_badLength {p : List Byte} (h : p.length ≠ 1) (s : State) :
    setStepCountBody p s = .error .badLength := by
  match p, h with
  | [], _ => rfl
  | [_], h => exact absurd rfl h
  | _ :: _ :: _, _ => rfl

theorem setStepCountBody_range {n : Byte} {s : State} (h : ¬ stepCountOk s.sequencer n.toNat = true) :
    setStepCountBody [n] s = .error .range := if_neg h

theorem setStepCountBody_done {n : Byte} {s : State} (h : stepCountOk s.sequencer n.toNat = true) :
    setStepCountBody [n] s =
      done (setStepCount n.toNat s) (n :: b1 (setStepCount n.toNat s).sequencer.state.code) := if_pos h

/-- R102: from EMPTY the schedule is LOADED. -/
theorem setStepCount_empty {s : State} (h : s.sequencer.state = .empty) (n : Nat) : setStepCount n s =
    raiseNotice .scheduleState 1 (some s.sequencer.causes.code) none
      { s with sequencer := { s.sequencer with stepCount := n, state := .loaded } } := if_pos h

theorem setStepCount_counted {s : State} (h : s.sequencer.state ≠ .empty) (n : Nat) : setStepCount n s =
    { s with sequencer := { s.sequencer with stepCount := n } } := if_neg h

end Sys2Proof.DryingSchedule
end

section
/-! CERTIFICATE. LOAD_STEP and SET_STEP_COUNT. -/

namespace Sys2Proof.DryingSchedule

open Sys2Proof.Machine
open Sys2Proof.Safety
open Sys2Proof.Laws

/-- Settles O43: the checks of each request in their order, then the record or the count stored. -/
theorem stepTable : Obligations.StepTable := by
  intro f rest s p two kind cond sound
  refine ⟨fun asked => ⟨fun bad => congrArg _ (serveRequest_refused asked (loadStepBody_badLength bad)),
      fun long bad => ?range, fun i long hi fits => ?load⟩,
    fun asked => ⟨fun bad => congrArg _ (serveRequest_refused asked (setStepCountBody_badLength bad _)),
      fun n hp => ?count⟩⟩
  case range =>
    exact congrArg _ (serveRequest_refused (why := .range) asked
      (loadStepBody_range long (bad.imp ProbePolling.indexOf_eq_none.2 loadStepRecord_unfit)))
  case load =>
    obtain ⟨k, c, hk, hc, record⟩ := loadStepRecord_fits fits
    have index := ProbePolling.indexOf_eq_some.2 hi
    have reached := stepReached_iff s.sequencer i.val
    refine ⟨fun engaged below => ?busy, fun free => ⟨stepRecordOf p k c, hk, rfl, rfl, hc, threshold_eq hc _, rfl, rfl,
      rfl, rfl, ?loads⟩⟩
    case busy =>
      exact congrArg _ (serveRequest_refused (why := .busy) asked
        (loadStepBody_busy long index record (reached.2 ⟨engaged, below⟩)))
    case loads =>
      have clear : stepReached s.sequencer i.val = false := by
        rw [Bool.eq_false_iff, ne_eq, reached]
        rintro ⟨engaged, k, hk, below⟩
        rcases free with idle | above
        · rw [engaged] at idle
          cases idle
        · exact absurd (above k hk) (not_lt.2 below)
      have loads := loadStepBody_loads (s := Taken s rest) long index record clear
      rw [b1, ProbePolling.ofNat_eq_of_toNat hi] at loads
      exact congrArg _ (serveRequest_done asked loads rfl)
  case count =>
    intro counted
    have ok := stepCountOk_iff s.sequencer n.toNat
    refine ⟨fun bad => ?range, fun low high loaded above => ⟨fun empty => ?empty, fun stays => ?counted⟩⟩
    case range =>
      refine congrArg _ (serveRequest_refused (why := .range) asked ?_)
      rw [show f.payload = [n] from hp]
      refine setStepCountBody_range (mt ok.1 ?_)
      rintro ⟨low, high, loaded, above⟩
      rcases bad with bad | bad | ⟨i, hi, none⟩ | ⟨engaged, k, hk, below⟩
      · omega
      · omega
      · exact loaded i hi none
      · exact absurd (above engaged k hk) (not_lt.2 below)
    case empty =>
      have done := setStepCountBody_done (s := Taken s rest) (ok.2 ⟨low, high, loaded, above⟩)
      rw [setStepCount_empty (by exact empty), ← hp] at done
      exact congrArg _ (serveRequest_done asked done rfl)
    case counted =>
      have done := setStepCountBody_done (s := Taken s rest) (ok.2 ⟨low, high, loaded, above⟩)
      rw [setStepCount_counted (by exact stays), ← hp] at done
      exact congrArg _ (serveRequest_done asked done rfl)

end Sys2Proof.DryingSchedule
end

section
/-! SUPPORT. The bytes of READ_STEP (R103), READ_HISTORY (R120) and READ_SCHEDULE (R125), field by field. -/

namespace Sys2Proof.DryingSchedule

open Sys2Proof.Machine
open Sys2Proof.Safety
open Sys2Proof.Laws

/-! ### READ_STEP -/

/-- The fields of a step record stand at their offsets. -/
structure StepFields (d : List Byte) (n : Byte) (r : Option StepRecord) : Prop where
  length      : d.length = 18
  number      : byteAt d 0 = n
  unloaded    : r = none → byteAt d 1 = 0
  loaded      : r ≠ none → byteAt d 1 = 1
  kind        : Holds1 d 2 (r.map (·.kind.code))
  target      : HoldsTemp d 3 (r.map fun x => (x.target : Int))
  depression  : HoldsTemp d 5 (r.map fun x => (x.depression : Int))
  condition   : Holds1 d 7 (r.map (·.condition.code))
  threshold   : Holds2 d 8 (r.bind (·.threshold))
  minimum     : Holds2 d 10 (r.map (·.minimum))
  maximum     : Holds2 d 12 (r.map (·.maximum))
  rampRate    : Holds2 d 14 (r.map (·.rampRate))
  fanInterval : Holds2 d 16 (r.map (·.fanInterval))

theorem stepBytes_fields (i : Nat) (r : Option StepRecord) :
    StepFields (b1 i ++ stepBytes r) (BitVec.ofNat 8 i) r := by
  obtain ⟨_, kind, hKind⟩ := opt1_holds (r.map (·.kind.code))
  obtain ⟨_, _, target, hTarget⟩ := optTemp_holds (r.map (Int.ofNat ·.target))
  obtain ⟨_, _, depression, hDepression⟩ := optTemp_holds (r.map (Int.ofNat ·.depression))
  obtain ⟨_, condition, hCondition⟩ := opt1_holds (r.map (·.condition.code))
  obtain ⟨_, _, threshold, hThreshold⟩ := opt2_holds (r.bind (·.threshold))
  obtain ⟨_, _, minimum, hMinimum⟩ := opt2_holds (r.map (·.minimum))
  obtain ⟨_, _, maximum, hMaximum⟩ := opt2_holds (r.map (·.maximum))
  obtain ⟨_, _, rampRate, hRampRate⟩ := opt2_holds (r.map (·.rampRate))
  obtain ⟨_, _, fanInterval, hFanInterval⟩ := opt2_holds (r.map (·.fanInterval))
  unfold stepBytes
  rw [kind, target, depression, condition, threshold, minimum, maximum, rampRate, fanInterval]
  simp only [flag1, b1, List.cons_append, List.nil_append]
  exact {
    length := rfl
    number := rfl
    unloaded := fun h => by rw [h]; rfl
    loaded := fun h => by rw [Option.isSome_iff_ne_none.2 h]; rfl
    kind := hKind _ _ rfl
    target := hTarget _ _ rfl rfl
    depression := hDepression _ _ rfl rfl
    condition := hCondition _ _ rfl
    threshold := hThreshold _ _ rfl rfl
    minimum := hMinimum _ _ rfl rfl
    maximum := hMaximum _ _ rfl rfl
    rampRate := hRampRate _ _ rfl rfl
    fanInterval := hFanInterval _ _ rfl rfl }

theorem stepAt_index (q : Sequencer) (i : Fin 24) : q.stepAt i.val = q.steps[i] :=
  (List.getD_eq_getElem _ _ (by simp)).trans (Vector.getElem_toList _)

theorem readStepBody_badLength {p : List Byte} (h : p.length ≠ 1) (s : State) : readStepBody p s = .error .badLength := by
  match p, h with
  | [], _ => rfl
  | [_], h => exact absurd rfl h
  | _ :: _ :: _, _ => rfl

theorem readStepBody_range {n : Byte} (h : 23 < n.toNat) (s : State) : readStepBody [n] s = .error .range := by
  simp only [readStepBody, ProbePolling.indexOf_eq_none.2 h]

theorem readStepBody_reads {n : Byte} (h : n.toNat ≤ 23) (s : State) :
    readStepBody [n] s = done s (b1 n.toNat ++ stepBytes (s.sequencer.stepAt n.toNat)) := by
  let i : Fin 24 := ⟨n.toNat, Nat.lt_succ_of_le h⟩
  have index : indexOf 24 n = some i := ProbePolling.indexOf_eq_some.2 rfl
  simp only [readStepBody, index]
  rw [← stepAt_index]

/-! ### READ_HISTORY -/

/-- The fields of a history entry stand at their offsets, behind the number of entries. -/
structure HistoryFields (d : List Byte) (n : Nat) (h : Option HistoryEntry) : Prop where
  length      : d.length = 11
  count       : Holds1 d 0 (some n)
  step        : Holds1 d 1 (h.map (·.step))
  entryMinute : Holds3 d 2 (h.map (·.entryMinute))
  exitMinute  : Holds3 d 5 (h.map (·.exitMinute))
  reason      : Holds1 d 8 (h.map (·.reason.code))
  cmcAtExit   : Holds2 d 9 (h.bind (·.cmcAtExit))

/-- R120: an entry's fields, each absent where there is no entry. -/
theorem historyBytes_eq (h : Option HistoryEntry) : historyBytes h = opt1 (h.map (·.step)) ++ opt3 (h.map (·.entryMinute)) ++
    opt3 (h.map (·.exitMinute)) ++ opt1 (h.map (·.reason.code)) ++ opt2 (h.bind (·.cmcAtExit)) := by
  cases h <;> rfl

theorem historyBytes_fields (n : Nat) (h : Option HistoryEntry) : HistoryFields (b1 n ++ historyBytes h) n h := by
  obtain ⟨_, count, hCount⟩ := b1_holds n
  obtain ⟨_, step, hStep⟩ := opt1_holds (h.map (·.step))
  obtain ⟨_, _, _, entryMinute, hEntry⟩ := opt3_holds (h.map (·.entryMinute))
  obtain ⟨_, _, _, exitMinute, hExit⟩ := opt3_holds (h.map (·.exitMinute))
  obtain ⟨_, reason, hReason⟩ := opt1_holds (h.map (·.reason.code))
  obtain ⟨_, _, cmcAtExit, hCmc⟩ := opt2_holds (h.bind (·.cmcAtExit))
  rw [historyBytes_eq, count, step, entryMinute, exitMinute, reason, cmcAtExit]
  exact {
    length := rfl
    count := hCount _ _ rfl
    step := hStep _ _ rfl
    entryMinute := hEntry _ _ rfl rfl rfl
    exitMinute := hExit _ _ rfl rfl rfl
    reason := hReason _ _ rfl
    cmcAtExit := hCmc _ _ rfl rfl }

theorem readHistoryBody_badLength {p : List Byte} (h : p.length ≠ 1) (s : State) :
    readHistoryBody p s = .error .badLength := by
  match p, h with
  | [], _ => rfl
  | [_], h => exact absurd rfl h
  | _ :: _ :: _, _ => rfl

theorem readHistoryBody_range {n : Byte} (h : 23 < n.toNat) (s : State) : readHistoryBody [n] s = .error .range := if_pos h

theorem readHistoryBody_reads {n : Byte} (h : n.toNat ≤ 23) (s : State) : readHistoryBody [n] s =
    done s (b1 s.sequencer.history.length ++ historyBytes s.sequencer.history[n.toNat]?) := if_neg (Nat.not_lt.2 h)

/-! ### READ_SCHEDULE -/

theorem causes_code_eq (c : Causes) : c.code = (if c.manual then 1 else 0) + (if c.starved then 2 else 0) +
    (if c.fieldFault then 4 else 0) + (if c.driveFault then 8 else 0) := by
  have bit (b : Bool) (k : Nat) : k * b.toNat = if b then k else 0 := by cases b <;> simp
  rw [Causes.code, bit, bit, bit, ← bit c.manual, one_mul]

theorem causes_code_lt (c : Causes) : c.code < 256 := by
  rw [causes_code_eq]
  split_ifs <;> decide

/-- The fields of the schedule stand at their offsets. -/
structure ScheduleFields (d : List Byte) (q : Sequencer) : Prop where
  length       : d.length = 23
  state        : (byteAt d 0).toNat = q.state.code
  stepCount    : Holds1 d 1 (some q.stepCount)
  stepIndex    : Holds1 d 2 q.stepIndex
  elapsed      : Holds2 d 3 (some q.elapsed)
  entryMinute  : Holds3 d 5 (some q.entryMinute)
  chargeMinute : Holds3 d 8 (some q.chargeMinute)
  causes       : (byteAt d 11).toNat = q.causes.code
  streak       : Holds1 d 12 (some q.streak)
  working      : HoldsTemp d 13 q.working
  target       : HoldsTemp d 15 (q.currentStep.map fun r => (r.target : Int))
  dry          : HoldsTemp d 17 q.publishedDry
  wet          : HoldsTemp d 19 q.publishedWet
  fan          : (byteAt d 21).toNat = q.fan.code
  history      : Holds1 d 22 (some q.history.length)

theorem scheduleBytes_fields (q : Sequencer) : ScheduleFields (scheduleBytes q) q := by
  obtain ⟨_, stepCount, hStepCount⟩ := b1_holds q.stepCount
  obtain ⟨_, stepIndex, hStepIndex⟩ := opt1_holds q.stepIndex
  obtain ⟨_, _, elapsed, hElapsed⟩ := b2_holds q.elapsed
  obtain ⟨_, _, _, entryMinute, hEntryMinute⟩ := b3_holds q.entryMinute
  obtain ⟨_, _, _, chargeMinute, hChargeMinute⟩ := b3_holds q.chargeMinute
  obtain ⟨_, streak, hStreak⟩ := b1_holds q.streak
  obtain ⟨_, _, working, hWorking⟩ := optTemp_holds q.working
  obtain ⟨_, _, target, hTarget⟩ := optTemp_holds (q.currentStep.map (Int.ofNat ·.target))
  obtain ⟨_, _, dry, hDry⟩ := optTemp_holds q.publishedDry
  obtain ⟨_, _, wet, hWet⟩ := optTemp_holds q.publishedWet
  obtain ⟨_, history, hHistory⟩ := b1_holds q.history.length
  unfold scheduleBytes
  rw [stepCount, stepIndex, elapsed, entryMinute, chargeMinute, streak, working, target, dry, wet, history]
  simp only [b1, List.cons_append, List.nil_append]
  exact {
    length := rfl
    state := by
      show (BitVec.ofNat 8 q.state.code).toNat = _
      cases q.state <;> rfl
    stepCount := hStepCount _ _ rfl
    stepIndex := hStepIndex _ _ rfl
    elapsed := hElapsed _ _ rfl rfl
    entryMinute := hEntryMinute _ _ rfl rfl rfl
    chargeMinute := hChargeMinute _ _ rfl rfl rfl
    causes := Nat.mod_eq_of_lt (causes_code_lt q.causes)
    streak := hStreak _ _ rfl
    working := hWorking _ _ rfl rfl
    target := hTarget _ _ rfl rfl
    dry := hDry _ _ rfl rfl
    wet := hWet _ _ rfl rfl
    fan := by
      show (BitVec.ofNat 8 q.fan.code).toNat = _
      cases q.fan <;> rfl
    history := hHistory _ _ rfl }

theorem readScheduleBody_payload {p : List Byte} (h : p ≠ []) (s : State) : readScheduleBody p s = .error .badLength := by
  cases p with
  | nil => exact absurd rfl h
  | cons => rfl

/-! ### The published setpoints (R123) -/

theorem publishedDry_idle {q : Sequencer} (h : q.engaged = false) : q.publishedDry = none := by
  simp [Sequencer.publishedDry, h]

theorem publishedWet_idle {q : Sequencer} (h : q.engaged = false) : q.publishedWet = none := by
  rw [Sequencer.publishedWet, publishedDry_idle h]

theorem publishedDry_engaged {q : Sequencer} {w : Int} (h : q.engaged = true) (hw : q.working = some w) :
    q.publishedDry = some (roundDiv w 10) := by
  simp [Sequencer.publishedDry, h, hw]

theorem publishedWet_engaged {q : Sequencer} {w : Int} {r : StepRecord} (h : q.engaged = true)
    (hr : q.currentStep = some r) (hw : q.working = some w) :
    q.publishedWet = some (max 0 (roundDiv w 10 - r.depression)) := by
  rw [Sequencer.publishedWet, publishedDry_engaged h hw, hr]

end Sys2Proof.DryingSchedule
end

section
/-! CERTIFICATE. READ_STEP, READ_HISTORY and READ_SCHEDULE. -/

namespace Sys2Proof.DryingSchedule

open Sys2Proof.Machine
open Sys2Proof.Safety
open Sys2Proof.Laws

/-- Settles O44: the bytes of `stepBytes_fields`, `historyBytes_fields` and `scheduleBytes_fields`, and the published
setpoints by the schedule state. -/
theorem scheduleReadings : Obligations.ScheduleReadings := by
  refine ⟨rfl, rfl, rfl, causes_code_eq, rfl, rfl, fun f rest s => ⟨fun asked => ?step, fun asked => ?history,
    fun asked => ?schedule⟩⟩
  case step =>
    refine ⟨fun bad => congrArg _ (serveRequest_refused asked (readStepBody_badLength bad _)), fun n hp =>
      ⟨fun out => congrArg _ (serveRequest_refused (why := .range) asked ?_), fun within => ?_⟩⟩
    · rw [hp]
      exact readStepBody_range out _
    · have fields := stepBytes_fields n.toNat (s.sequencer.stepAt n.toNat)
      rw [ProbePolling.ofNat_eq_of_toNat rfl] at fields
      refine ⟨_, congrArg _ (serveRequest_read asked ?_), fields.length, fields.number, fields.unloaded, fields.loaded,
        fields.kind, fields.target, fields.depression, fields.condition, fields.threshold, fields.minimum,
        fields.maximum, fields.rampRate, fields.fanInterval⟩
      rw [hp]
      exact readStepBody_reads within _
  case history =>
    refine ⟨fun bad => congrArg _ (serveRequest_refused asked (readHistoryBody_badLength bad _)), fun n hp =>
      ⟨fun out => congrArg _ (serveRequest_refused (why := .range) asked ?_), fun within => ?_⟩⟩
    · rw [hp]
      exact readHistoryBody_range out _
    · have fields := historyBytes_fields s.sequencer.history.length s.sequencer.history[n.toNat]?
      refine ⟨_, congrArg _ (serveRequest_read asked ?_), fields.length, fields.count, fields.step, fields.entryMinute,
        fields.exitMinute, fields.reason, fields.cmcAtExit⟩
      rw [hp]
      exact readHistoryBody_reads within _
  case schedule =>
    refine ⟨fun bad => congrArg _ (serveRequest_refused asked (readScheduleBody_payload bad _)), fun hp => ?_⟩
    intro q
    have fields := scheduleBytes_fields q
    refine ⟨_, congrArg _ (serveRequest_read asked (by rw [hp]; rfl)), fields.length, fields.state, fields.stepCount,
      fields.stepIndex, fields.elapsed, fields.entryMinute, fields.chargeMinute, fields.causes, fields.streak,
      fields.working, fields.target, fields.dry, fields.wet, fun idle => ⟨publishedDry_idle idle, publishedWet_idle idle⟩,
      fun r w engaged hr hw => ⟨roundDiv w 10, (MoistureConversion.roundedQuotient_iff (by decide)).2 rfl,
        publishedDry_engaged engaged hw, ?_⟩, fields.fan, fields.history⟩
    rw [publishedWet_engaged engaged hr hw]
    congr 1
    split <;> omega

end Sys2Proof.DryingSchedule
end

section
/-! SUPPORT. START (R104) and RESUME (R105): their checks, the ramp basis (R121) and the schedule they start. -/

namespace Sys2Proof.DryingSchedule

open Sys2Proof.Machine
open Sys2Proof.Safety
open Sys2Proof.Laws

/-! ### The ramp basis -/

/-- R121: the measured dry-bulb of a zone that counts, read off its entry. -/
theorem freshAutoDrys_eq (s : State) : freshAutoDrys s = (List.finRange 8).filterMap fun z =>
    match (s.zone z).mode, (s.zone z).lastStatus with
    | .auto, some st => if (s.zone z).age ≤ 2 then some st.dry else none
    | _, _ => none := by
  refine List.filterMap_congr fun z _ => ?_
  unfold ZoneEntry.fresh
  cases (s.zone z).mode <;> cases (s.zone z).lastStatus <;> simp

theorem startBasis_eq (s : State) (r : StepRecord) : startBasis s r =
    if freshAutoDrys s ≠ [] then 10 * roundDiv (freshAutoDrys s).sum (freshAutoDrys s).length
    else if s.zones.envelope.dryFloor ≤ s.zones.envelope.dryCeiling then 10 * s.zones.envelope.dryFloor
    else 10 * (r.target : Int) := by
  unfold startBasis
  cases freshAutoDrys s with
  | nil => simp [pairEnabled, StepRecord.goal]
  | cons => rfl

/-! ### The checks -/

theorem startBusy_iff (s : State) :
    startBusy s = true ↔ s.sequencer.state ≠ .loaded ∨ s.field.lineState ≠ .running := by
  simp [startBusy]

theorem startBusy_free {s : State} (hs : s.sequencer.state = .loaded) (hf : s.field.lineState = .running) :
    startBusy s = false := by
  simp [startBusy, hs, hf]

theorem startBody_payload {p : List Byte} (h : p ≠ []) (s : State) : startBody p s = .error .badLength := by
  cases p with
  | nil => exact absurd rfl h
  | cons => rfl

theorem startBody_busy {s : State} (h : startBusy s = true) : startBody [] s = .error .busy := if_pos h

theorem startBody_starts {s : State} {r : StepRecord} (h : startBusy s = false) (hr : s.sequencer.stepAt 0 = some r) :
    startBody [] s = done (startSchedule 0 0 r s) (startedBytes (startSchedule 0 0 r s) 0) := by
  simp [startBody, h, hr]

theorem resumeBody_badLength {p : List Byte} (h : p.length ≠ 3) (s : State) : resumeBody p s = .error .badLength := by
  match p, h with
  | [], _ | [_], _ | [_, _], _ => rfl
  | [_, _, _], h => exact absurd rfl h
  | _ :: _ :: _ :: _ :: _, _ => rfl

section

variable {k hi lo : Byte} {s : State}

theorem resumeBody_range (h : resumeStep s.sequencer k.toNat (u16 hi lo) = none) :
    resumeBody [k, hi, lo] s = .error .range := by
  simp only [resumeBody, h]

variable {r : StepRecord} (h : resumeStep s.sequencer k.toNat (u16 hi lo) = some r)

include h

theorem resumeBody_busy (busy : startBusy s = true) : resumeBody [k, hi, lo] s = .error .busy := by
  simp only [resumeBody, h, busy, if_true]

theorem resumeBody_resumes (free : startBusy s = false) : resumeBody [k, hi, lo] s =
    done (startSchedule k.toNat (u16 hi lo) r s) (startedBytes (startSchedule k.toNat (u16 hi lo) r s) k.toNat) := by
  simp only [resumeBody, h, free, Bool.false_eq_true, if_false]

end

theorem resumeStep_beyond {q : Sequencer} {k : Nat} (h : q.stepCount ≤ k) (e : Nat) : resumeStep q k e = none :=
  if_neg (Nat.not_lt.2 h)

section

variable {q : Sequencer} {k e : Nat} {r : StepRecord} (hk : k < q.stepCount) (hr : q.stepAt k = some r)

include hk hr

theorem resumeStep_over (h : r.maximum ≤ e) : resumeStep q k e = none := by
  simp [resumeStep, hk, hr, h]

theorem resumeStep_within (h : e < r.maximum) : resumeStep q k e = some r := by
  simp [resumeStep, hk, hr, h]

end

/-! ### The schedule started -/

/-- R104, R105, R106: the state START and RESUME leave; `down` says that the Drive Line is in FAULT. -/
theorem startSchedule_eq (i e : Nat) (r : StepRecord) (s : State) : startSchedule i e r s =
    let down := s.drive.lineState.isFault
    raiseNotice .scheduleState (if down then ScheduleState.held else .running).code (some (if down then 8 else 0)) none
      (tellZones { s with
        sequencer := { s.sequencer with
          state := if down then .held else .running, stepIndex := some i, elapsed := e, entryMinute := 0
          chargeMinute := 0, causes := { noCauses with driveFault := down }, streak := 0, history := []
          basis := some (startBasis s r), working := some (rampAt r (startBasis s r) e), fan := .forward }
        estimator := { s.estimator with lagFlags := Vector.replicate 8 false } }) := by
  let begun := s.setSequencer { s.sequencer with
    chargeMinute := 0, streak := 0, fan := .forward, history := [], causes := startCauses s, state := startState s }
  have frees : entryFrees begun.sequencer r = false := Bool.and_false _
  have state : startState s = if s.drive.lineState.isFault then .held else .running := by
    unfold startState startCauses
    cases s.drive.lineState.isFault <;> rfl
  have code : (startCauses s).code = if s.drive.lineState.isFault then 8 else 0 := by
    unfold startCauses
    cases s.drive.lineState.isFault <;> rfl
  have started : startSchedule i e r s = scheduleNotice (enterStep i e r (startBasis s r) begun) := rfl
  rw [started, enterStep_stays frees, ChargeEstimate.scheduleNotice_eq, (calm_tellZones _).sequencer]
  simp only [begun, State.setSequencer, state, code]
  rfl

theorem startedBytes_eq (i e : Nat) (r : StepRecord) (s : State) : startedBytes (startSchedule i e r s) i =
    [BitVec.ofNat 8 (if s.drive.lineState.isFault then ScheduleState.held else .running).code, BitVec.ofNat 8 i,
      BitVec.ofNat 8 (if s.drive.lineState.isFault then 8 else 0)] := by
  rw [startedBytes, startSchedule_eq]
  simp only [(calm_raiseNotice _ _ _ _ _).sequencer, (calm_tellZones _).sequencer]
  cases s.drive.lineState.isFault <;> rfl

end Sys2Proof.DryingSchedule
end

section
/-! CERTIFICATE. START and RESUME. -/

namespace Sys2Proof.DryingSchedule

open Sys2Proof.Machine
open Sys2Proof.Safety
open Sys2Proof.Laws

/-- Settles O45: the checks of each request in their order, and the schedule of `startSchedule_eq`. -/
theorem startResume : Obligations.StartResume := by
  intro f rest s drys e basis down state causes code started
  have hBasis : ∀ r, startBasis (Taken s rest) r = basis r := by
    intro r
    rw [startBasis_eq, freshAutoDrys_eq]
    rfl
  have hStarted : ∀ k m r, startSchedule k m r (Taken s rest) = started k m r := by
    intro k m r
    rw [startSchedule_eq, hBasis]
    rfl
  refine ⟨fun asked => ⟨fun bad => ?_, fun hp busy => ?_, fun r hp loaded running hr => ?start⟩,
    fun asked => ⟨fun bad => ?_, fun k hi lo hp => ?resume⟩⟩
  · exact congrArg _ (serveRequest_refused asked (startBody_payload bad _))
  · exact congrArg _ (serveRequest_refused (why := .busy) asked (by rw [hp]; exact startBody_busy ((startBusy_iff _).2 busy)))
  case start =>
    have starts := startBody_starts (s := Taken s rest) (startBusy_free loaded running) hr
    rw [← hp, startedBytes_eq] at starts
    rw [← hStarted]
    exact congrArg Host.Outcome.next (serveRequest_done asked starts (outer_startSchedule _ _ _ _).handler)
  · exact congrArg _ (serveRequest_refused asked (resumeBody_badLength bad _))
  case resume =>
    intro m
    refine ⟨fun beyond => ?beyond, fun r within hr => ⟨fun late => ?late, fun below busy => ?busy,
      fun below loaded running => ?resumes⟩⟩
    case beyond =>
      refine congrArg _ (serveRequest_refused (why := .range) asked ?_)
      rw [hp]
      exact resumeBody_range (resumeStep_beyond beyond _)
    case late =>
      refine congrArg _ (serveRequest_refused (why := .range) asked ?_)
      rw [hp]
      exact resumeBody_range (resumeStep_over within hr late)
    case busy =>
      refine congrArg _ (serveRequest_refused (why := .busy) asked ?_)
      rw [hp]
      exact resumeBody_busy (resumeStep_within within hr below) ((startBusy_iff _).2 busy)
    case resumes =>
      have resumes := resumeBody_resumes (s := Taken s rest) (hi := hi) (lo := lo) (resumeStep_within within hr below)
        (startBusy_free loaded running)
      rw [← hp, startedBytes_eq, ProbePolling.ofNat_eq_of_toNat rfl] at resumes
      rw [← hStarted]
      exact congrArg Host.Outcome.next (serveRequest_done asked resumes (outer_startSchedule _ _ _ _).handler)

end Sys2Proof.DryingSchedule
end

section
/-! SUPPORT. A run of frame builds for distinct zones (R127, R128, R132, R136 to R138): the entries it writes, the notices
it raises, and the places its frames take in the Drive Queue. -/

namespace Sys2Proof.DryingSchedule

open Sys2Proof.Machine
open Sys2Proof.Safety
open Sys2Proof.Laws

/-! ### One build -/

/-- R127: the entry of a zone after the build of a content. -/
def builtZone (s : State) (z : Fin 8) (c : FrameContent) : ZoneEntry :=
  { s.zone z with
    lastBuilt := builtFrame s z c, nextTag := (s.zone z).nextTag + 1, clampedLast := (builtFrame s z c).marks.any }

/-- R136: the frame of a build as it enters the Drive Queue. -/
def builtEntry (s : State) (z : Fin 8) (c : FrameContent) : QueuedFrame :=
  { zone := z, frame := builtFrame s z c, modeAtBuild := (s.zone z).mode }

/-- R132: whether a build raises ENVELOPE_CLAMP. -/
def clampDue (s : State) (z : Fin 8) (c : FrameContent) : Bool :=
  (builtFrame s z c).marks.any && !(s.zone z).clampedLast

/-- R132: the ENVELOPE_CLAMP notice of a build. -/
def clampNoticeOf (s : State) (z : Fin 8) (c : FrameContent) : Notice :=
  { kind := .envelopeClamp, subject := z.val, minute := s.uptime, value1 := some (builtFrame s z c).marks.code
    value2 := some c.origin.code }

/-- R127, R132: the zone's entry written and its notice raised, before the frame enters the Drive Queue. -/
def recorded (z : Fin 8) (c : FrameContent) (s : State) : State :=
  { s.setZone z (builtZone s z c) with
    notices := if clampDue s z c then s.notices.add (clampNoticeOf s z c) else s.notices }

theorem buildFrame_eq (z : Fin 8) (c : FrameContent) (s : State) :
    buildFrame z c s = enqueueFrame (builtEntry s z c) (recorded z c s) := by
  refine congrArg (enqueueFrame (builtEntry s z c)) (?_ : clampNotice z _ (s.zone z).clampedLast
    (s.setZone z (builtZone s z c)) = recorded z c s)
  unfold clampNotice recorded clampDue
  split <;> rfl

theorem builtEntry_congr {z : Fin 8} {s u : State} {c : FrameContent} (h : SameFor z s u) :
    builtEntry u z c = builtEntry s z c := by
  rw [builtEntry, builtEntry, builtFrame_congr h, h.zone]

theorem builtZone_congr {z : Fin 8} {s u : State} {c : FrameContent} (h : SameFor z s u) :
    builtZone u z c = builtZone s z c := by
  rw [builtZone, builtZone, builtFrame_congr h, h.zone]

theorem openExchange_notices (s : State) : (openExchange s).notices = s.notices := by
  unfold openExchange
  split
  · split <;> rfl
  · rfl

theorem enqueueFrame_notices (q : QueuedFrame) (s : State) : (enqueueFrame q s).notices = s.notices := by
  rw [enqueueFrame, openExchange_notices]
  exact openExchange_notices s

theorem buildFrame_notices (z : Fin 8) (c : FrameContent) (s : State) : (buildFrame z c s).notices =
    if clampDue s z c then s.notices.add (clampNoticeOf s z c) else s.notices := by
  rw [buildFrame_eq, enqueueFrame_notices, recorded]

/-! ### The Drive Queue, the exchange and the Drive unit -/

/-- The states agree in the Drive Queue, the exchange in flight and the Drive unit. -/
structure SameQueue (s t : State) : Prop where
  queue    : t.zones.queue = s.zones.queue
  exchange : t.zones.exchange = s.zones.exchange
  drive    : t.drive = s.drive

theorem SameQueue.trans {s t u : State} (h : SameQueue s t) (k : SameQueue t u) : SameQueue s u :=
  ⟨k.queue.trans h.queue, k.exchange.trans h.exchange, k.drive.trans h.drive⟩

theorem SameQueue.handOver {s t : State} (h : SameQueue s t) : SameQueue (openExchange s) (openExchange t) := by
  obtain ⟨queue, exchange, drive⟩ := h
  unfold openExchange
  rw [queue, exchange, drive]
  cases hx : s.zones.exchange with
  | some x => exact ⟨queue, exchange, drive⟩
  | none =>
    cases hq : s.zones.queue with
    | nil => exact ⟨queue, exchange, drive⟩
    | cons q rest =>
      dsimp only
      split
      · exact ⟨rfl, rfl, rfl⟩
      · exact ⟨queue, exchange, drive⟩

theorem SameQueue.enqueue {s t : State} (h : SameQueue s t) (q : QueuedFrame) :
    SameQueue (enqueueFrame q s) (enqueueFrame q t) := by
  have opened := h.handOver
  refine SameQueue.handOver ⟨?_, opened.exchange, opened.drive⟩
  show placeFrame q _ = placeFrame q _
  rw [opened.queue]

theorem sameQueue_recorded (z : Fin 8) (c : FrameContent) (s : State) : SameQueue s (recorded z c s) :=
  ⟨rfl, rfl, rfl⟩

/-- R138: the oldest frame handed over. -/
theorem openExchange_oldest {s : State} {q : QueuedFrame} {rest : List QueuedFrame} (hx : s.zones.exchange = none)
    (hq : s.zones.queue = q :: rest) (hl : s.drive.lineState = .running) : openExchange s = { s with
      zones := { s.zones with queue := rest, exchange := some { entry := q, phase := .sending, timeout := .stopped } }
      drive := { s.drive with slot := .waiting (q.frame.toFrame q.zone) } } := by
  have take : s.drive.take (q.frame.toFrame q.zone) = { s.drive with slot := .waiting (q.frame.toFrame q.zone) } := by
    have sound : s.drive.lineState.isFault = false := by rw [hl]; rfl
    rw [PairUnit.take, sound]
    rfl
  rw [← take]
  simp only [openExchange, hx, hq, hl, if_true]

/-- R138: after a hand-over that was due, none is due. -/
theorem openExchange_leaves (s : State) : (openExchange s).zones.exchange ≠ none ∨
    (openExchange s).drive.lineState ≠ .running ∨ (openExchange s).zones.queue = [] := by
  by_cases h : s.zones.exchange ≠ none ∨ s.drive.lineState ≠ .running ∨ s.zones.queue = []
  · rw [openExchange_settled h]
    exact h
  · push Not at h
    obtain ⟨hx, hl, hq⟩ := h
    obtain ⟨q, rest, hq⟩ := List.exists_cons_of_ne_nil hq
    rw [openExchange_oldest hx hq hl]
    exact .inl nofun

/-- The entry and the notice of a build may be written before or after a hand-over that is due. -/
theorem recorded_openExchange (z : Fin 8) (c : FrameContent) (s : State) :
    recorded z c (openExchange s) = openExchange (recorded z c s) := by
  obtain ⟨queue, exchange, drive⟩ := sameQueue_recorded z c s
  by_cases h : s.zones.exchange ≠ none ∨ s.drive.lineState ≠ .running ∨ s.zones.queue = []
  · rw [openExchange_settled h, openExchange_settled]
    rwa [queue, exchange, drive]
  · push Not at h
    obtain ⟨hx, hl, hq⟩ := h
    obtain ⟨q, rest, hq⟩ := List.exists_cons_of_ne_nil hq
    rw [openExchange_oldest hx hq hl, openExchange_oldest (exchange.trans hx) (queue.trans hq) (by rw [drive, hl])]
    rfl

theorem enqueueFrame_openExchange (q : QueuedFrame) (s : State) : enqueueFrame q (openExchange s) = enqueueFrame q s := by
  unfold enqueueFrame
  rw [openExchange_idem]

theorem buildFrame_openExchange (z : Fin 8) (c : FrameContent) (s : State) :
    buildFrame z c (openExchange s) = buildFrame z c s := by
  obtain ⟨sequencer, envelope, period⟩ := openExchange_keeps s
  have same : SameFor z s (openExchange s) := ⟨zone_openExchange s z, sequencer, envelope, period⟩
  rw [buildFrame_eq, recorded_openExchange, enqueueFrame_openExchange, builtEntry_congr same, ← buildFrame_eq]

/-! ### A run of builds -/

/-- The builds of zones in turn, each of a content of its own. -/
def buildRun (c : Fin 8 → FrameContent) (zones : List (Fin 8)) (s : State) : State :=
  zones.foldl (fun s z => buildFrame z (c z) s) s

/-- A fold that builds for some zones of a list, by what each build depends on, is the run over those zones. -/
theorem foldl_eq_buildRun {f : State → Fin 8 → State} {builds : Fin 8 → Bool} {c : Fin 8 → FrameContent}
    {zones : List (Fin 8)} (distinct : zones.Nodup) {s : State}
    (hf : ∀ z ∈ zones, ∀ u, SameFor z s u → f u z = if builds z then buildFrame z (c z) u else u) :
    zones.foldl f s = buildRun c (zones.filter builds) s := by
  induction zones generalizing s with
  | nil => rfl
  | cons y ys ih =>
    obtain ⟨fresh, distinct⟩ := List.nodup_cons.1 distinct
    rw [List.foldl_cons, hf y List.mem_cons_self s (.refl y s), List.filter_cons]
    split
    · refine ih distinct fun z hz u same => hf z (List.mem_cons_of_mem y hz) u ?_
      have ne : y ≠ z := fun e => fresh (e ▸ hz)
      exact (sameFor_buildFrame (c y) s ne).trans same
    · exact ih distinct fun z hz => hf z (List.mem_cons_of_mem y hz)

theorem sameFor_build (c : Fin 8 → FrameContent) (s : State) (y z : Fin 8) (h : y ≠ z) :
    SameFor z s (buildFrame y (c y) s) := sameFor_buildFrame (c y) s h

section

variable (c : Fin 8 → FrameContent) {zones : List (Fin 8)} (s : State)

theorem zone_buildRun_other {z : Fin 8} (h : z ∉ zones) : (buildRun c zones s).zone z = s.zone z :=
  (sameFor_foldl (sameFor_build c) h s).zone

theorem buildRun_keeps : (buildRun c zones s).zones.envelope = s.zones.envelope ∧
    (buildRun c zones s).zones.periodTimer = s.zones.periodTimer := by
  unfold buildRun
  induction zones generalizing s with
  | nil => exact ⟨rfl, rfl⟩
  | cons z zones ih =>
    obtain ⟨-, envelope, period⟩ := buildFrame_keeps z (c z) s
    obtain ⟨envelope', period'⟩ := ih (buildFrame z (c z) s)
    exact ⟨envelope'.trans envelope, period'.trans period⟩

theorem openExchange_buildRun (h : zones ≠ []) : openExchange (buildRun c zones s) = buildRun c zones s := by
  obtain rfl | ⟨zs, z, rfl⟩ := List.eq_nil_or_concat zones
  · exact absurd rfl h
  rw [buildRun, List.concat_eq_append, List.foldl_append]
  exact openExchange_idem _

theorem buildRun_openExchange (h : zones ≠ []) : buildRun c zones (openExchange s) = buildRun c zones s := by
  obtain ⟨z, zs, rfl⟩ := List.exists_cons_of_ne_nil h
  rw [buildRun, List.foldl_cons, buildFrame_openExchange]
  rfl

variable (distinct : zones.Nodup)

include distinct

/-- R127, R136: a zone of the run has its entry built, and its frame in the Drive Queue or in flight. -/
theorem zone_buildRun {z : Fin 8} (h : z ∈ zones) : (buildRun c zones s).zone z = builtZone s z (c z) ∧
    Placed z (builtFrame s z (c z)) (buildRun c zones s) := by
  refine zone_foldl (sameFor_build c) _ (fun _ _ ne placed => placed_buildFrame_ne placed ne) s h distinct
    fun u same => ?_
  have built : (buildFrame z (c z) u).zone z = builtZone s z (c z) :=
    (zone_buildFrame z (c z) u).trans (builtZone_congr same)
  have placed := placed_buildFrame z (c z) u
  rw [built] at placed
  exact ⟨built, placed⟩

/-- R132: the notices of the run, in its order. -/
theorem notices_buildRun : (buildRun c zones s).notices = (zones.filter fun z => clampDue s z (c z)).foldl
    (fun q z => q.add (clampNoticeOf s z (c z))) s.notices := by
  induction zones generalizing s with
  | nil => rfl
  | cons y ys ih =>
    obtain ⟨fresh, distinct⟩ := List.nodup_cons.1 distinct
    have step : buildRun c (y :: ys) s = buildRun c ys (buildFrame y (c y) s) := rfl
    have same {z : Fin 8} (hz : z ∈ ys) : SameFor z s (buildFrame y (c y) s) :=
      sameFor_build c s y z fun e => fresh (e ▸ hz)
    have due : (ys.filter fun z => clampDue (buildFrame y (c y) s) z (c z)) = ys.filter fun z => clampDue s z (c z) :=
      List.filter_congr fun z hz => by rw [clampDue, clampDue, builtFrame_congr (same hz), (same hz).zone]
    have uptime : (buildFrame y (c y) s).uptime = s.uptime := (calm_buildFrame y (c y) s).uptime
    rw [step, ih _ distinct, due, buildFrame_notices, List.filter_cons]
    have rest (q : NoticeQueue) : (ys.filter fun z => clampDue s z (c z)).foldl
        (fun q z => q.add (clampNoticeOf (buildFrame y (c y) s) z (c z))) q =
        (ys.filter fun z => clampDue s z (c z)).foldl (fun q z => q.add (clampNoticeOf s z (c z))) q :=
      List.foldl_ext _ _ q fun q z hz => by
        rw [clampNoticeOf, clampNoticeOf, uptime, builtFrame_congr (same (List.mem_of_mem_filter hz))]
    rw [rest]
    split <;> rfl

/-- R136, R138: the run leaves the Drive Queue, the exchange and the Drive unit as its frames alone would, entering the
queue one after another. -/
theorem sameQueue_buildRun {u : State} (h : SameQueue u s) :
    SameQueue ((zones.map fun z => builtEntry s z (c z)).foldl (fun s q => enqueueFrame q s) u)
      (buildRun c zones s) := by
  induction zones generalizing s u with
  | nil => exact h
  | cons y ys ih =>
    obtain ⟨fresh, distinct⟩ := List.nodup_cons.1 distinct
    have entries : (ys.map fun z => builtEntry (buildFrame y (c y) s) z (c z)) = ys.map fun z => builtEntry s z (c z) :=
      List.map_congr_left fun z hz => builtEntry_congr (sameFor_build c s y z fun e => fresh (e ▸ hz))
    have first : SameQueue (enqueueFrame (builtEntry s y (c y)) u) (buildFrame y (c y) s) := by
      rw [buildFrame_eq]
      exact (h.trans (sameQueue_recorded y (c y) s)).enqueue _
    have run := ih (buildFrame y (c y) s) distinct first
    rwa [entries] at run

end

end Sys2Proof.DryingSchedule
end

section
/-! SUPPORT. The content of a schedule event's frame (R123, R127), and where the frames of a run of builds stand in the
Drive Queue (R136, R138). -/

namespace Sys2Proof.DryingSchedule

open Sys2Proof.Machine
open Sys2Proof.Safety
open Sys2Proof.Laws

/-! ### The content of a frame -/

theorem scheduleContent_idle {q : Sequencer} (h : q.engaged = false) : scheduleContent q = idleContent := by
  rw [scheduleContent, publishedDry_idle h]
  cases q.currentStep <;> rfl

/-- R123, R127: the SCHEDULE frame's content, of the current step and the published setpoints. -/
theorem scheduleContent_engaged {q : Sequencer} {r : StepRecord} {w : Int} (h : q.engaged = true)
    (hr : q.currentStep = some r) (hw : q.working = some w) : scheduleContent q =
      { origin := .schedule, fanRun := true, direction := q.fan, stage := r.kind.stage
        setpoints := some { dry := roundDiv w 10, wet := max 0 (roundDiv w 10 - r.depression) } } := by
  rw [scheduleContent, hr, publishedDry_engaged h hw, publishedWet_engaged h hr hw]

theorem scheduleContent_cases (q : Sequencer) :
    scheduleContent q = idleContent ∨ (scheduleContent q).origin = .schedule := by
  unfold scheduleContent
  split
  · exact .inr rfl
  · exact .inl rfl

/-- R127: a content with setpoints is that of a SCHEDULE frame. -/
theorem scheduleContent_origin {q : Sequencer} (h : (scheduleContent q).setpoints ≠ none) :
    (scheduleContent q).origin = .schedule :=
  (scheduleContent_cases q).resolve_left fun idle => h (by rw [idle]; rfl)

/-- R127: a frame without setpoints carries no marks. -/
theorem marks_unset {c : FrameContent} (h : c.setpoints = none) (s : State) (z : Fin 8) :
    (builtFrame s z c).marks = noMarks := by
  rw [builtFrame, h]
  rfl

theorem setpoints_of_marked {c : FrameContent} {s : State} {z : Fin 8} (h : (builtFrame s z c).marks.any = true) :
    c.setpoints ≠ none :=
  fun unset => absurd h (by rw [marks_unset unset]; decide)

theorem clampDue_unset {c : FrameContent} (h : c.setpoints = none) (s : State) (z : Fin 8) : clampDue s z c = false := by
  rw [clampDue, marks_unset h]
  rfl

/-! ### The notices of a run -/

/-- The notices of a run over the zones that build, each notice named by its zone. -/
theorem notices_run {builds due : Fin 8 → Bool} {c : Fin 8 → FrameContent} {s : State} {n : Fin 8 → Notice}
    (hdue : ∀ z, (builds z && clampDue s z (c z)) = due z)
    (hn : ∀ z, due z = true → clampNoticeOf s z (c z) = n z) :
    (buildRun c ((List.finRange 8).filter builds) s).notices =
      ((List.finRange 8).filter due).foldl (fun q z => q.add (n z)) s.notices := by
  have zones : (((List.finRange 8).filter builds).filter fun z => clampDue s z (c z)) = (List.finRange 8).filter due := by
    rw [List.filter_filter]
    exact List.filter_congr fun z _ => by rw [← hdue z, Bool.and_comm]
  rw [notices_buildRun c s ((List.nodup_finRange 8).filter builds), zones]
  exact List.foldl_ext _ _ _ fun q z hz => by rw [hn z (List.mem_filter.1 hz).2]

theorem notices_quiet {builds : Fin 8 → Bool} {c : Fin 8 → FrameContent} {s : State}
    (h : ∀ z, clampDue s z (c z) = false) :
    (buildRun c ((List.finRange 8).filter builds) s).notices = s.notices := by
  rw [notices_run (due := fun _ => false) (n := fun z => clampNoticeOf s z (c z)) (fun z => by rw [h z, Bool.and_false])
    nofun, List.filter_false]
  rfl

/-! ### Places in the Drive Queue -/

/-- R136: a queue after the frames of the zones that build have entered it, each in the place of its zone's pending frame or
at the back, in ascending zone. -/
def placedEntries (builds : Fin 8 → Bool) (entry : Fin 8 → QueuedFrame) (l : List QueuedFrame) : List QueuedFrame :=
  l.map (fun q => if builds q.zone then entry q.zone else q) ++
    ((List.finRange 8).filter fun z => builds z && l.all fun q => q.zone != z).map entry

theorem placedEntries_congr {builds : Fin 8 → Bool} {e e' : Fin 8 → QueuedFrame} (h : ∀ z, builds z = true → e z = e' z)
    (l : List QueuedFrame) : placedEntries builds e l = placedEntries builds e' l := by
  refine congrArg₂ (· ++ ·) (List.map_congr_left fun q _ => ?_) (List.map_congr_left fun z hz => h z ?_)
  · split
    · next hb => exact h _ hb
    · rfl
  · exact (Bool.and_eq_true_iff.1 (List.mem_filter.1 hz).2).1

section

variable {builds : Fin 8 → Bool} {e : Fin 8 → QueuedFrame} (he : ∀ z, (e z).zone = z)

include he

theorem zones_entries (zones : List (Fin 8)) : (zones.map e).map (·.zone) = zones := by
  rw [List.map_map]
  exact (List.map_congr_left fun z _ => he z).trans (List.map_id zones)

/-- The frame of the run that is for a zone. -/
theorem find_entry (zones : List (Fin 8)) (z : Fin 8) :
    ((zones.map e).find? fun q => q.zone == z) = if z ∈ zones then some (e z) else none := by
  induction zones with
  | nil => rfl
  | cons y ys ih =>
    rw [List.map_cons, List.find?_cons, he]
    by_cases h : y = z
    · simp [h]
    · rw [beq_eq_false_iff_ne.2 h]
      simp [ih, Ne.symm h]

theorem placeFrames_entries {l : List QueuedFrame} (hl : (l.map (·.zone)).Nodup) :
    (((List.finRange 8).filter builds).map e).foldl (fun l q => placeFrame q l) l = placedEntries builds e l := by
  have distinct : ((((List.finRange 8).filter builds).map e).map (·.zone)).Nodup := by
    rw [zones_entries he]
    exact (List.nodup_finRange 8).filter builds
  rw [placeFrames_eq _ l distinct hl, placedEntries]
  refine congrArg₂ _ (List.map_congr_left fun q _ => ?_) ?_
  · rw [find_entry he]
    by_cases h : builds q.zone = true <;> simp [h]
  · rw [List.filter_map, List.filter_filter]
    refine congrArg _ (List.filter_congr fun z _ => ?_)
    rw [Function.comp_apply, he, Bool.and_comm]

end

theorem enqueueFrames_settled (qs : List QueuedFrame) {s : State}
    (h : s.zones.exchange ≠ none ∨ s.drive.lineState ≠ .running) :
    qs.foldl (fun s q => enqueueFrame q s) s = s.setQueue (qs.foldl (fun l q => placeFrame q l) s.zones.queue) := by
  induction qs generalizing s with
  | nil => rfl
  | cons q qs ih =>
    have settled {u : State} (exchange : u.zones.exchange = s.zones.exchange) (drive : u.drive = s.drive) :
        openExchange u = u := by
      refine openExchange_settled ?_
      rw [exchange, drive]
      exact h.imp_right .inl
    have entered : enqueueFrame q s = s.setQueue (placeFrame q s.zones.queue) := by
      rw [enqueueFrame, settled rfl rfl]
      exact settled rfl rfl
    rw [List.foldl_cons, entered]
    exact ih h

section

variable {builds : Fin 8 → Bool} {c : Fin 8 → FrameContent} {u s : State} (same : SameQueue u s)

include same

/-- R136, R138: a run that hands nothing over leaves its frames in the queue. -/
theorem buildRun_settled (h : u.zones.exchange ≠ none ∨ u.drive.lineState ≠ .running) :
    SameQueue (u.setQueue ((((List.finRange 8).filter builds).map fun z => builtEntry s z (c z)).foldl
      (fun l q => placeFrame q l) u.zones.queue)) (buildRun c ((List.finRange 8).filter builds) s) := by
  have run := sameQueue_buildRun c s ((List.nodup_finRange 8).filter builds) same
  rwa [enqueueFrames_settled _ h] at run

/-- R136, R138: where no frame of a zone of the run is due to be handed over before it, all frames of the run are placed, and
then the oldest is handed over. -/
theorem buildRun_places (sound : QueueSound u.zones) (h : Later u ((List.finRange 8).filter builds)) :
    SameQueue (openExchange (u.setQueue (placedEntries builds (fun z => builtEntry s z (c z)) u.zones.queue)))
      (openExchange (buildRun c ((List.finRange 8).filter builds) s)) := by
  have distinct : ((List.finRange 8).filter builds).Nodup := (List.nodup_finRange 8).filter builds
  have zone (z : Fin 8) : (builtEntry s z (c z)).zone = z := rfl
  have run := (sameQueue_buildRun c s distinct same).handOver
  have zones := zones_entries zone ((List.finRange 8).filter builds)
  rwa [enqueueFrames_eq _ u (by rwa [zones]) (by rwa [zones]), placeFrames_entries zone sound] at run

end

/-- The frames of a run as the entries of the state it ends in. -/
theorem builtEntry_buildRun (c : Fin 8 → FrameContent) {zones : List (Fin 8)} (s : State) (distinct : zones.Nodup)
    {z : Fin 8} (h : z ∈ zones) : builtEntry s z (c z) =
      { zone := z, frame := ((buildRun c zones s).zone z).lastBuilt, modeAtBuild := (s.zone z).mode } := by
  rw [(zone_buildRun c s distinct h).1]
  rfl

theorem zonesOnly_eq {s t : State} (h : ZonesOnly s t) :
    t = { s with zones := t.zones, drive := { s.drive with slot := t.drive.slot }, notices := t.notices } := by
  obtain ⟨z, d, n, rfl⟩ := h
  rfl

end Sys2Proof.DryingSchedule
end

section
/-! SUPPORT. A schedule event as a run of builds for the zones in AUTO (R128), and what a zone's entry is after it. -/

namespace Sys2Proof.DryingSchedule

open Sys2Proof.Machine
open Sys2Proof.Safety
open Sys2Proof.Laws

/-- R128: the zones a schedule event builds for. -/
def auto (s : State) (z : Fin 8) : Bool := decide ((s.zone z).mode = .auto)

theorem auto_iff {s : State} {z : Fin 8} : auto s z = true ↔ (s.zone z).mode = .auto := decide_eq_true_iff

theorem mem_auto {s : State} {z : Fin 8} (h : (s.zone z).mode = .auto) : z ∈ (List.finRange 8).filter (auto s) :=
  List.mem_filter.2 ⟨List.mem_finRange z, auto_iff.2 h⟩

theorem tellZones_eq (s : State) :
    tellZones s = buildRun (fun _ => scheduleContent s.sequencer) ((List.finRange 8).filter (auto s)) s := by
  refine foldl_eq_buildRun (List.nodup_finRange 8) fun z _ u same => ?_
  simp only [autoBuild, same.zone, same.sequencer, auto_iff]

theorem toldZone_other {s : State} {z : Fin 8} (h : (s.zone z).mode ≠ .auto) :
    LineFraming.toldZone s z = s.zone z := if_neg h

theorem toldZone_auto {s : State} {z : Fin 8} (h : (s.zone z).mode = .auto) :
    LineFraming.toldZone s z = builtZone s z (scheduleContent s.sequencer) := if_pos h

/-- R136: the frames of a schedule event, as the entries it leaves. -/
theorem builtEntry_tellZones {s : State} {z : Fin 8} (h : auto s z = true) : builtEntry s z (scheduleContent s.sequencer) =
    { zone := z, frame := ((tellZones s).zone z).lastBuilt, modeAtBuild := .auto } := by
  rw [tellZones_eq, builtEntry_buildRun (fun _ => scheduleContent s.sequencer) s ((List.nodup_finRange 8).filter _)
    (mem_auto (auto_iff.1 h)), auto_iff.1 h]

theorem tellZones_nobody {s : State} (h : ∀ z, (s.zone z).mode ≠ .auto) : tellZones s = s := by
  rw [tellZones_eq, List.filter_eq_nil_iff.2 fun z _ => mt auto_iff.1 (h z)]
  rfl

theorem tellZones_openExchange {s : State} {z : Fin 8} (h : (s.zone z).mode = .auto) :
    tellZones (openExchange s) = tellZones s := by
  have zones : auto (openExchange s) = auto s := funext fun y => by rw [auto, auto, zone_openExchange]
  rw [tellZones_eq, tellZones_eq, zones, (openExchange_keeps s).1,
    buildRun_openExchange _ s (List.ne_nil_of_mem (mem_auto h))]

/-- R136: a schedule event that hands nothing over places its frames. -/
theorem tellZones_settled {s : State} (sound : QueueSound s.zones)
    (h : s.zones.exchange ≠ none ∨ s.drive.lineState ≠ .running) :
    SameQueue (s.setQueue (placedEntries (auto s) (fun z => builtEntry s z (scheduleContent s.sequencer)) s.zones.queue))
      (tellZones s) := by
  have run := buildRun_settled (builds := auto s) (c := fun _ => scheduleContent s.sequencer)
    (⟨rfl, rfl, rfl⟩ : SameQueue s s) h
  rwa [placeFrames_entries (fun _ => rfl) sound, ← tellZones_eq] at run

/-- R136, R138: a schedule event on an empty queue places its frames and hands over the first. -/
theorem tellZones_empty {s : State} {z : Fin 8} (hz : (s.zone z).mode = .auto) (hq : s.zones.queue = []) :
    SameQueue (openExchange (s.setQueue
      (placedEntries (auto s) (fun z => builtEntry s z (scheduleContent s.sequencer)) s.zones.queue))) (tellZones s) := by
  have sound : QueueSound s.zones := by rw [QueueSound, hq]; exact List.nodup_nil
  have run := buildRun_places (builds := auto s) (c := fun _ => scheduleContent s.sequencer)
    (⟨rfl, rfl, rfl⟩ : SameQueue s s) sound (.inr (.inr (by simp [hq])))
  rwa [openExchange_buildRun _ s (List.ne_nil_of_mem (mem_auto hz)), ← tellZones_eq] at run

end Sys2Proof.DryingSchedule
end

section
/-! CERTIFICATE. O24: a schedule event builds a frame for each zone in AUTO. -/

namespace Sys2Proof.DryingSchedule

open Sys2Proof.Machine
open Sys2Proof.Safety
open Sys2Proof.Laws

/-- Settles O24: the event is a run of builds (`tellZones_eq`), whose entries are `toldZone`, whose notices `notices_run`
gives, and whose frames are placed all at once. -/
theorem scheduleEventBuilds : Obligations.ScheduleEventBuilds := by
  intro s t isAuto idle entry queue
  have told : t = tellZones s := rfl
  clear_value t
  have zone (z : Fin 8) : t.zone z = LineFraming.toldZone s z := by rw [told, LineFraming.zone_tellZones]
  have entries (z : Fin 8) (hz : auto s z = true) : builtEntry s z (scheduleContent s.sequencer) = entry z := by
    rw [builtEntry_tellZones hz, ← told]
  have places : queue = placedEntries (auto s) (fun z => builtEntry s z (scheduleContent s.sequencer)) s.zones.queue := by
    rw [placedEntries_congr entries]
    simp only [placedEntries, auto_iff]
    rfl
  refine ⟨rfl, fun z hz => (zone z).trans (toldZone_other hz), fun z hz he => ?idle, fun he => ?quiet,
    fun r w he hr hw => ⟨fun z hz => ?schedule, ?notices⟩,
    fun nobody => told.trans (tellZones_nobody nobody), fun sound h => ?settled,
    fun q rest hx hl hq hqueue => ?first, fun ⟨z, hz⟩ => told.trans (tellZones_openExchange hz).symm,
    fun z hz => ?placed, ?only, ?keeps⟩
  case idle =>
    rw [zone z, toldZone_auto hz, scheduleContent_idle he]
    rfl
  case schedule =>
    rw [zone z, toldZone_auto hz, scheduleContent_engaged he hr hw]
    rfl
  case quiet =>
    have unset : (scheduleContent s.sequencer).setpoints = none := by rw [scheduleContent_idle he]; rfl
    rw [← notices_quiet (builds := auto s) fun z => clampDue_unset unset s z, told, tellZones_eq]
  case notices =>
    have content := scheduleContent_engaged he hr hw
    rw [told, tellZones_eq]
    refine notices_run (fun z => ?_) fun z _ => ?_
    · rw [content, Bool.and_assoc]
      rfl
    · rw [content]
      rfl
  case settled =>
    obtain ⟨hq, hx, hd⟩ := tellZones_settled sound h
    rw [told]
    exact ⟨hq.trans places.symm, hx, hd⟩
  case first =>
    have mem : q ∈ (((List.finRange 8).filter fun z => auto s z && s.zones.queue.all fun q => q.zone != z).map entry) := by
      have : q ∈ queue := hqueue ▸ List.mem_cons_self
      simpa [queue, hq, auto, isAuto] using this
    obtain ⟨z, hz, -⟩ := List.mem_map.1 mem
    have hz : isAuto z := auto_iff.1 (Bool.and_eq_true_iff.1 (List.mem_filter.1 hz).2).1
    obtain ⟨tq, tx, td⟩ := tellZones_empty hz hq
    rw [← places, hqueue, openExchange_oldest (s := s.setQueue (q :: rest)) hx rfl hl] at tq tx td
    rw [told]
    exact ⟨tq, tx, td⟩
  case only =>
    rw [told]
    exact zonesOnly_eq (zonesOnly_tellZones s)
  case keeps =>
    rw [told]
    exact LineFraming.tellZones_keeps s
  case placed =>
    have run := (zone_buildRun (fun _ => scheduleContent s.sequencer) s ((List.nodup_finRange 8).filter _) (mem_auto hz)).2
    rw [zone z, toldZone_auto hz]
    rwa [← tellZones_eq, ← told] at run

end Sys2Proof.DryingSchedule
end

section
/-! SUPPORT. An expiry of the drive period timer as a run of builds (R128, R137). -/

namespace Sys2Proof.DryingSchedule

open Sys2Proof.Machine
open Sys2Proof.Safety
open Sys2Proof.Laws

/-- R137: whether a zone has a frame built at an expiry of the drive period timer. -/
def periodBuilds (e : ZoneEntry) : Bool := e.mode == .auto || (e.mode == .manual && e.manual.isSome)

/-- R128: the content of that frame. -/
def periodContent (q : Sequencer) (e : ZoneEntry) : FrameContent :=
  match e.mode, e.manual with
  | .auto, _ => scheduleContent q
  | _, some r => manualContent r
  | _, none => idleContent

theorem periodContent_auto {e : ZoneEntry} (h : e.mode = .auto) (q : Sequencer) :
    periodContent q e = scheduleContent q := by rw [periodContent, h]

theorem periodContent_manual {e : ZoneEntry} {r : ManualRecord} (h : e.mode = .manual) (hr : e.manual = some r)
    (q : Sequencer) : periodContent q e = manualContent r := by rw [periodContent, h, hr]

theorem periodBuilds_iff (e : ZoneEntry) :
    periodBuilds e = true ↔ e.mode = .auto ∨ (e.mode = .manual ∧ ∃ r, e.manual = some r) := by
  simp [periodBuilds, Option.isSome_iff_exists]

theorem periodBuild_eq (s : State) (z : Fin 8) : periodBuild s z =
    if periodBuilds (s.zone z) then buildFrame z (periodContent s.sequencer (s.zone z)) s else s := by
  unfold periodBuild periodBuilds periodContent
  cases (s.zone z).mode with
  | off => rfl
  | auto => rfl
  | manual => cases (s.zone z).manual <;> rfl

theorem aged_eq (e : ZoneEntry) :
    e.aged = { e with age := if e.lastStatus.isSome then min (e.age + 1) 255 else e.age } := by
  unfold ZoneEntry.aged
  split <;> rfl

theorem periodBuilds_aged (e : ZoneEntry) : periodBuilds e.aged = periodBuilds e := by rw [aged_eq]; rfl

theorem periodContent_aged (q : Sequencer) (e : ZoneEntry) : periodContent q e.aged = periodContent q e := by
  rw [aged_eq]; rfl

/-- R137: the state the builds of an expiry start from. -/
def periodBase (s : State) : State := openExchange (ageZones s)

theorem zone_periodBase (s : State) (z : Fin 8) : (periodBase s).zone z = (s.zone z).aged := by
  rw [periodBase, zone_openExchange]
  simp [ageZones, State.zone]

theorem sameQueue_periodBase (s : State) : SameQueue (openExchange s) (periodBase s) :=
  SameQueue.handOver ⟨rfl, rfl, rfl⟩

theorem drivePeriod_eq (s : State) : Machine.drivePeriod s = buildRun (fun z => periodContent s.sequencer (s.zone z))
    ((List.finRange 8).filter fun z => periodBuilds (s.zone z)) (periodBase s) := by
  refine foldl_eq_buildRun (List.nodup_finRange 8) fun z _ u (same : SameFor z (periodBase s) u) => ?_
  have sequencer : u.sequencer = s.sequencer := same.sequencer.trans (openExchange_keeps (ageZones s)).1
  rw [periodBuild_eq, same.zone, zone_periodBase, periodBuilds_aged, periodContent_aged, sequencer]

/-- R128, R137: the entry of a zone that has a frame built, and where that frame stands. -/
theorem drivePeriod_builds {s : State} {z : Fin 8} (h : periodBuilds (s.zone z) = true) :
    (Machine.drivePeriod s).zone z = builtZone (periodBase s) z (periodContent s.sequencer (s.zone z)) ∧
    Placed z (builtFrame (periodBase s) z (periodContent s.sequencer (s.zone z))) (Machine.drivePeriod s) := by
  rw [drivePeriod_eq]
  exact zone_buildRun _ _ ((List.nodup_finRange 8).filter _) (List.mem_filter.2 ⟨List.mem_finRange z, h⟩)

theorem drivePeriod_ages {s : State} {z : Fin 8} (h : periodBuilds (s.zone z) = false) :
    (Machine.drivePeriod s).zone z = (s.zone z).aged := by
  rw [drivePeriod_eq, zone_buildRun_other _ _ (by simp [h]), zone_periodBase]

/-- R127: the marks of a frame come with setpoints, so its origin is SCHEDULE in AUTO and SUPERVISOR in MANUAL. -/
theorem periodContent_origin {q : Sequencer} {e : ZoneEntry} (builds : periodBuilds e = true)
    (h : (periodContent q e).setpoints ≠ none) : (periodContent q e).origin.code = if e.mode = .auto then 1 else 2 := by
  obtain auto | ⟨manual, r, hr⟩ := (periodBuilds_iff e).1 builds
  · rw [periodContent_auto auto] at h ⊢
    rw [scheduleContent_origin h, if_pos auto]
    rfl
  · rw [periodContent_manual manual hr, manual]
    rfl

theorem clampContent_eq (e : Envelope) (sp : Option Setpoints) : clampContent e sp =
    (sp.map fun x => (clampSetpoints e x).1, (sp.map fun x => (clampSetpoints e x).2).getD noMarks) := by
  cases sp <;> rfl

theorem envelope_periodBase (s : State) : (periodBase s).zones.envelope = s.zones.envelope :=
  (openExchange_keeps (ageZones s)).2.1

/-- R127: the entry of a zone that has a frame built, field by field. -/
theorem builtZone_periodBase (s : State) (z : Fin 8) (c : FrameContent) : builtZone (periodBase s) z c =
    let marks := (c.setpoints.map fun x => (clampSetpoints s.zones.envelope x).2).getD noMarks
    { s.zone z with
      age := if (s.zone z).lastStatus.isSome then min ((s.zone z).age + 1) 255 else (s.zone z).age
      lastBuilt := { tag := (s.zone z).nextTag, origin := c.origin, fanRun := c.fanRun, direction := c.direction
                     stage := c.stage, setpoints := c.setpoints.map fun x => (clampSetpoints s.zones.envelope x).1
                     marks := marks }
      nextTag := (s.zone z).nextTag + 1, clampedLast := marks.any } := by
  rw [builtZone, builtFrame, zone_periodBase, aged_eq, envelope_periodBase, clampContent_eq]

theorem notices_periodBase (s : State) : (periodBase s).notices = s.notices := openExchange_notices (ageZones s)

theorem uptime_periodBase (s : State) : (periodBase s).uptime = s.uptime := (calm_openExchange (ageZones s)).uptime

theorem drivePeriod_opened (s : State) : openExchange (Machine.drivePeriod s) = Machine.drivePeriod s := by
  rw [drivePeriod_eq]
  by_cases h : ((List.finRange 8).filter fun z => periodBuilds (s.zone z)) = []
  · rw [h]
    exact openExchange_idem _
  · exact openExchange_buildRun _ _ h

/-- R136, R138: the frames of an expiry are placed, and then the oldest frame is handed over where that is due. -/
theorem drivePeriod_places {s : State} (sound : QueueSound s.zones) : SameQueue (openExchange ((openExchange s).setQueue
    (placedEntries (fun z => periodBuilds (s.zone z))
      (fun z => builtEntry (periodBase s) z (periodContent s.sequencer (s.zone z))) (openExchange s).zones.queue)))
    (Machine.drivePeriod s) := by
  have later (zones : List (Fin 8)) : Later (openExchange s) zones :=
    (openExchange_leaves s).imp_right (·.imp_right fun h => by simp [h])
  have run := buildRun_places (builds := fun z => periodBuilds (s.zone z))
    (c := fun z => periodContent s.sequencer (s.zone z)) (sameQueue_periodBase s)
    ((calm_openExchange s).queue sound) (later _)
  rwa [← drivePeriod_eq, drivePeriod_opened] at run

/-- R138: an expiry leaves an exchange in flight alone. -/
theorem drivePeriod_inFlight {s : State} (h : s.zones.exchange ≠ none) :
    (Machine.drivePeriod s).zones.exchange = s.zones.exchange ∧ (Machine.drivePeriod s).drive = s.drive := by
  have same := sameQueue_periodBase s
  rw [openExchange_settled (.inl h)] at same
  have run := buildRun_settled (builds := fun z => periodBuilds (s.zone z))
    (c := fun z => periodContent s.sequencer (s.zone z)) same (.inl h)
  rw [← drivePeriod_eq] at run
  exact ⟨run.exchange, run.drive⟩

theorem drivePeriod_keeps (s : State) : (Machine.drivePeriod s).zones.envelope = s.zones.envelope ∧
    (Machine.drivePeriod s).zones.periodTimer = .running (s.param .drivePeriod) := by
  obtain ⟨-, envelope, period⟩ := openExchange_keeps (ageZones s)
  rw [drivePeriod_eq]
  obtain ⟨envelope', period'⟩ := buildRun_keeps (fun z => periodContent s.sequencer (s.zone z))
    (zones := (List.finRange 8).filter fun z => periodBuilds (s.zone z)) (periodBase s)
  exact ⟨envelope'.trans envelope, period'.trans period⟩

end Sys2Proof.DryingSchedule
end

section
/-! CERTIFICATE. O25: DRIVE_PERIOD_EXPIRY. -/

namespace Sys2Proof.DryingSchedule

open Sys2Proof.Machine
open Sys2Proof.Safety
open Sys2Proof.Laws

/-- Settles O25: the expiry is a run of builds on the aged zones (`drivePeriod_eq`); a zone's entry is the built one or the
aged one, the notices are those of the run, and its frames are placed all at once. -/
theorem drivePeriod : Obligations.DrivePeriod := by
  intro s
  obtain ⟨t, told⟩ : ∃ t, t = Machine.drivePeriod s := ⟨_, rfl⟩
  refine ⟨t, congrArg Host.Outcome.next told.symm, ?_⟩
  intro builds entry u placed
  have zone {z : Fin 8} (h : builds z = true) :
      t.zone z = builtZone (periodBase s) z (periodContent s.sequencer (s.zone z)) := by
    rw [told, (drivePeriod_builds h).1]
  have age {z : Fin 8} (h : builds z = false) : t.zone z = { s.zone z with
      age := if (s.zone z).lastStatus.isSome then min ((s.zone z).age + 1) 255 else (s.zone z).age } := by
    rw [told, drivePeriod_ages h, aged_eq]
  have entries (z : Fin 8) (h : builds z = true) :
      builtEntry (periodBase s) z (periodContent s.sequencer (s.zone z)) = entry z := by
    simp only [entry, zone h, builtEntry, zone_periodBase, aged_eq, builtZone]
  have auto {z : Fin 8} (h : (s.zone z).mode = .auto) : builds z = true := (periodBuilds_iff _).2 (.inl h)
  have manual {z : Fin 8} {r : ManualRecord} (h : (s.zone z).mode = .manual) (hr : (s.zone z).manual = some r) :
      builds z = true := (periodBuilds_iff _).2 (.inr ⟨h, r, hr⟩)
  refine ⟨fun z => ⟨fun hm he => ?idle, fun r w hm he hr hw => ?schedule, fun r hm hr => ?supervisor, fun hm hr => ?unset,
    fun hm => ?off, fun h => ?stands⟩, ?notices, fun sound => ?places, fun x hx => ?inFlight, ?timer, ?envelope, ?only⟩
  case idle =>
    rw [zone (auto hm), builtZone_periodBase, periodContent_auto hm, scheduleContent_idle he]
    rfl
  case schedule =>
    rw [zone (auto hm), builtZone_periodBase, periodContent_auto hm, scheduleContent_engaged he hr hw]
  case supervisor =>
    rw [zone (manual hm hr), builtZone_periodBase, periodContent_manual hm hr]
    rfl
  case unset => exact age (by simp [builds, hm, hr])
  case off => exact age (by simp [builds, hm])
  case stands =>
    have hb : builds z = true := (periodBuilds_iff _).2 (h.imp_right (·.imp_right Option.ne_none_iff_exists'.1))
    have stands := (drivePeriod_builds hb).2
    rw [← told] at stands
    rw [zone hb]
    exact stands
  case notices =>
    have run := notices_run (builds := builds) (c := fun z => periodContent s.sequencer (s.zone z)) (s := periodBase s)
      (due := fun z => builds z && (t.zone z).lastBuilt.marks.any && !(s.zone z).clampedLast)
      (n := fun z => { kind := .envelopeClamp, subject := z.val, minute := s.uptime
                       value1 := some (t.zone z).lastBuilt.marks.code
                       value2 := some (if (s.zone z).mode = .auto then 1 else 2) }) ?due ?notice
    · rw [notices_periodBase] at run
      exact ((congrArg State.notices (told.trans (drivePeriod_eq s)) :)).trans run
    case due =>
      intro z
      rw [Bool.and_assoc]
      cases hb : builds z with
      | false => rfl
      | true => rw [zone hb, clampDue, zone_periodBase, aged_eq, builtZone]
    case notice =>
      intro z due
      obtain ⟨⟨hb, marked⟩, -⟩ : (builds z = true ∧ (t.zone z).lastBuilt.marks.any = true) ∧ _ := by
        simpa only [Bool.and_eq_true] using due
      rw [zone hb] at marked ⊢
      rw [clampNoticeOf, uptime_periodBase, periodContent_origin hb (setpoints_of_marked marked), builtZone]
  case places =>
    have run := drivePeriod_places sound
    rw [← told, placedEntries_congr (builds := fun z => periodBuilds (s.zone z)) entries] at run
    obtain ⟨tq, tx, td⟩ := run
    exact ⟨tq, tx, td⟩
  case inFlight =>
    obtain ⟨tx, td⟩ := drivePeriod_inFlight (s := s) (by rw [hx]; exact Option.some_ne_none x)
    rw [told, tx, td]
    exact ⟨hx, rfl⟩
  case timer => rw [told, (drivePeriod_keeps s).2]
  case envelope => rw [told, (drivePeriod_keeps s).1]
  case only =>
    rw [told]
    exact zonesOnly_eq (zonesOnly_drivePeriod s)

end Sys2Proof.DryingSchedule
end

section
/-! SUPPORT. A change of a zone's mode (R129). -/

namespace Sys2Proof.DryingSchedule

open Sys2Proof.Machine
open Sys2Proof.Safety
open Sys2Proof.Laws

/-! ### The request's checks -/

theorem zoneMode_ofCode_iff {n : Nat} {m : ZoneMode} : ZoneMode.ofCode n = some m ↔ m.code = n := by
  refine ⟨fun h => ?_, fun h => ?_⟩
  · unfold ZoneMode.ofCode at h
    split at h <;> cases h <;> rfl
  · subst h
    cases m <;> rfl

theorem zoneMode_code_le (m : ZoneMode) : m.code ≤ 2 := by cases m <;> decide

theorem setZoneModeBody_badLength {p : List Byte} (h : p.length ≠ 2) (s : State) :
    setZoneModeBody p s = .error .badLength := by
  unfold setZoneModeBody
  split
  · exact absurd rfl h
  · rfl

theorem setZoneModeBody_range {a m : Byte} (h : 7 < a.toNat ∨ 2 < m.toNat) (s : State) :
    setZoneModeBody [a, m] s = .error .range := by
  obtain hz | hm := h
  · simp only [setZoneModeBody, ProbePolling.indexOf_eq_none.2 hz]
  · have unknown : ZoneMode.ofCode m.toNat = none := Option.eq_none_iff_forall_ne_some.2 fun mode known => by
      have := zoneMode_code_le mode
      rw [zoneMode_ofCode_iff.1 known] at this
      omega
    rw [setZoneModeBody, unknown]
    cases indexOf 8 a <;> rfl

theorem setZoneModeBody_sets {a m : Byte} {z : Fin 8} {mode : ZoneMode} (hz : a.toNat = z.val) (hm : m.toNat = mode.code)
    (s : State) : setZoneModeBody [a, m] s =
      done (Machine.setZoneMode z mode s) (zoneModeBytes z (Machine.setZoneMode z mode s)) := by
  simp only [setZoneModeBody, ProbePolling.indexOf_eq_some.2 hz, zoneMode_ofCode_iff.2 hm.symm]

/-! ### The mode entered -/

/-- R129, steps 1 to 3: the zone's pending frame removed and the mode entered, before the build. -/
def entered (z : Fin 8) (m : ZoneMode) (s : State) : State :=
  ((openExchange s).setQueue ((openExchange s).zones.queue.filter fun q => q.zone != z)).setZone z ((s.zone z).enter m)

section

variable {z : Fin 8} {m : ZoneMode} {s : State}

theorem setZoneMode_same (h : (s.zone z).mode = m) : Machine.setZoneMode z m s = s := if_pos h

theorem setZoneMode_other (h : (s.zone z).mode ≠ m) : Machine.setZoneMode z m s = modeBuild z m (entered z m s) := by
  refine (if_neg h).trans (congrArg (modeBuild z m) ?_)
  show State.setZone _ z (((openExchange s).zone z).enter m) = _
  rw [zone_openExchange]
  rfl

theorem zone_entered : (entered z m s).zone z = (s.zone z).enter m := State.zone_setZone _ _ _

theorem zone_entered_ne {y : Fin 8} (h : y ≠ z) : (entered z m s).zone y = s.zone y :=
  (State.zone_setZone_ne _ _ _ _ h.symm).trans (zone_openExchange s y)

theorem entered_keeps : (entered z m s).sequencer = s.sequencer ∧ (entered z m s).notices = s.notices ∧
    (entered z m s).uptime = s.uptime ∧ (entered z m s).zones.envelope = s.zones.envelope ∧
    (entered z m s).zones.periodTimer = s.zones.periodTimer := by
  obtain ⟨sequencer, envelope, period⟩ := openExchange_keeps s
  exact ⟨sequencer, openExchange_notices s, (calm_openExchange s).uptime, envelope, period⟩

theorem zonesOnly_entered : ZonesOnly s (entered z m s) :=
  (zonesOnly_openExchange s).trans ⟨_, (openExchange s).drive.slot, (openExchange s).notices, rfl⟩

/-- R129, R138: no frame is due to be handed over once the mode is entered. -/
theorem entered_opened : openExchange (entered z m s) = entered z m s := by
  refine openExchange_settled ((openExchange_leaves s).imp_right (·.imp_right fun empty => ?_))
  show (openExchange s).zones.queue.filter _ = []
  rw [empty]
  rfl

theorem builtFrame_entered (c : FrameContent) : builtFrame (entered z m s) z c = builtFrame s z c := by
  obtain ⟨-, -, -, envelope, -⟩ := entered_keeps (z := z) (m := m) (s := s)
  rw [builtFrame, builtFrame, zone_entered, envelope]
  rfl

theorem sameQueue_entered {u : State} (h : SameQueue u (openExchange s)) :
    SameQueue (u.setQueue (u.zones.queue.filter fun q => q.zone != z)) (entered z m s) := by
  obtain ⟨queue, exchange, drive⟩ := h
  exact ⟨by show List.filter _ _ = List.filter _ _; rw [queue], exchange, drive⟩

/-! ### The build of the mode -/

/-- R129, step 4: the content of the frame a mode is entered with. -/
def modeContent (q : Sequencer) : ZoneMode → FrameContent
  | .auto => scheduleContent q
  | _ => idleContent

theorem setZoneMode_manual (h : (s.zone z).mode ≠ .manual) : Machine.setZoneMode z .manual s = entered z .manual s :=
  setZoneMode_other h

theorem setZoneMode_builds (h : (s.zone z).mode ≠ m) (hm : m ≠ .manual) :
    Machine.setZoneMode z m s = buildFrame z (modeContent s.sequencer m) (entered z m s) := by
  obtain ⟨sequencer, -⟩ := entered_keeps (z := z) (m := m) (s := s)
  rw [setZoneMode_other h, ← sequencer]
  cases m with
  | manual => exact absurd rfl hm
  | off => rfl
  | auto => rfl

theorem placeFrame_absent {q : QueuedFrame} {l : List QueuedFrame} (h : ∀ x ∈ l, x.zone ≠ q.zone) :
    placeFrame q l = l ++ [q] := by
  induction l with
  | nil => rfl
  | cons x xs ih =>
    rw [placeFrame, if_neg (h x List.mem_cons_self), ih fun y hy => h y (List.mem_cons_of_mem x hy)]
    rfl

/-- R129, R136, R138: the frame of the mode joins the back of the Drive Queue, and the oldest frame is handed over where that
is due. -/
theorem setZoneMode_places {u : State} (h : (s.zone z).mode ≠ m) (hm : m ≠ .manual) (hu : SameQueue u (openExchange s)) :
    SameQueue (openExchange (u.setQueue ((u.zones.queue.filter fun q => q.zone != z) ++
      [{ zone := z, frame := builtFrame s z (modeContent s.sequencer m), modeAtBuild := m }])))
      (Machine.setZoneMode z m s) := by
  have here := sameQueue_entered (z := z) (m := m) hu
  have frame : builtEntry (entered z m s) z (modeContent s.sequencer m) =
      { zone := z, frame := builtFrame s z (modeContent s.sequencer m), modeAtBuild := m } := by
    rw [builtEntry, builtFrame_entered, zone_entered]
    rfl
  have back : ∀ q : QueuedFrame, q.zone = z → placeFrame q (entered z m s).zones.queue =
      (u.zones.queue.filter fun q => q.zone != z) ++ [q] := by
    rintro q rfl
    rw [here.queue]
    exact placeFrame_absent fun x hx => by simpa using (List.mem_filter.1 hx).2
  have run := (sameQueue_recorded z (modeContent s.sequencer m) (entered z m s)).enqueue
    (builtEntry (entered z m s) z (modeContent s.sequencer m))
  rw [← buildFrame_eq, ← setZoneMode_builds h hm, frame, enqueueFrame, entered_opened, back _ rfl] at run
  exact SameQueue.trans (SameQueue.handOver (t := (entered z m s).setQueue _) ⟨rfl, here.exchange, here.drive⟩) run

/-- R127, R129: the entry of a zone whose new mode builds a frame. -/
theorem zone_setZoneMode (h : (s.zone z).mode ≠ m) (hm : m ≠ .manual) : (Machine.setZoneMode z m s).zone z =
    { (s.zone z).enter m with
      lastBuilt := builtFrame s z (modeContent s.sequencer m), nextTag := (s.zone z).nextTag + 1
      clampedLast := (builtFrame s z (modeContent s.sequencer m)).marks.any } := by
  rw [setZoneMode_builds h hm, zone_buildFrame, builtFrame_entered, zone_entered]
  rfl

theorem notices_setZoneMode (h : (s.zone z).mode ≠ m) (hm : m ≠ .manual) : (Machine.setZoneMode z m s).notices =
    if clampDue s z (modeContent s.sequencer m) then
      s.notices.add (clampNoticeOf s z (modeContent s.sequencer m)) else s.notices := by
  obtain ⟨-, notices, uptime, -, -⟩ := entered_keeps (z := z) (m := m) (s := s)
  rw [setZoneMode_builds h hm, buildFrame_notices, notices, clampDue, clampDue, clampNoticeOf, clampNoticeOf,
    builtFrame_entered, zone_entered, uptime]
  rfl

/-- R129: what a change of mode leaves alone, whatever the mode. -/
theorem setZoneMode_keeps (h : (s.zone z).mode ≠ m) : ZonesOnly s (Machine.setZoneMode z m s) ∧
    (Machine.setZoneMode z m s).zones.envelope = s.zones.envelope ∧
    (Machine.setZoneMode z m s).zones.periodTimer = s.zones.periodTimer ∧
    ∀ y, y ≠ z → (Machine.setZoneMode z m s).zone y = s.zone y := by
  obtain ⟨-, -, -, envelope, period⟩ := entered_keeps (z := z) (m := m) (s := s)
  by_cases hm : m = .manual
  · subst hm
    rw [setZoneMode_manual h]
    exact ⟨zonesOnly_entered, envelope, period, fun y hy => zone_entered_ne hy⟩
  · obtain ⟨-, envelope', period'⟩ := buildFrame_keeps z (modeContent s.sequencer m) (entered z m s)
    rw [setZoneMode_builds h hm]
    exact ⟨zonesOnly_entered.trans (zonesOnly_buildFrame _ _ _), envelope'.trans envelope, period'.trans period,
      fun y hy => (zone_buildFrame_ne z y _ _ hy.symm).trans (zone_entered_ne hy)⟩

end

/-! ### The frames of the other zones -/

/-- A frame is pending or in flight. -/
def Stands (q : QueuedFrame) (t : State) : Prop :=
  q ∈ t.zones.queue ∨ ∃ x, t.zones.exchange = some x ∧ x.entry = q

theorem Stands.congr {q : QueuedFrame} {s t : State} (h : Stands q s) (same : SameQueue s t) : Stands q t := by
  rwa [Stands, same.queue, same.exchange]

theorem Stands.handOver {q : QueuedFrame} {s : State} (h : Stands q s) : Stands q (openExchange s) := by
  by_cases settled : s.zones.exchange ≠ none ∨ s.drive.lineState ≠ .running ∨ s.zones.queue = []
  · rwa [openExchange_settled settled]
  · push Not at settled
    obtain ⟨hx, hl, hq⟩ := settled
    obtain ⟨p, rest, hq⟩ := List.exists_cons_of_ne_nil hq
    rw [openExchange_oldest hx hq hl]
    obtain pending | ⟨x, inFlight, -⟩ := h
    · rw [hq] at pending
      obtain rfl | later := List.mem_cons.1 pending
      · exact .inr ⟨_, rfl, rfl⟩
      · exact .inl later
    · exact absurd (hx.symm.trans inFlight) nofun

theorem Stands.setQueue {q : QueuedFrame} {s : State} {l : List QueuedFrame} (h : Stands q s)
    (kept : q ∈ s.zones.queue → q ∈ l) : Stands q (s.setQueue l) := h.imp_left kept

/-- R129: a frame of another zone is pending still, or has been handed over. -/
theorem stands_setZoneMode {z : Fin 8} {m : ZoneMode} {s : State} (h : (s.zone z).mode ≠ m) {q : QueuedFrame}
    (pending : q ∈ s.zones.queue) (hz : q.zone ≠ z) : Stands q (Machine.setZoneMode z m s) := by
  have same : SameQueue (openExchange s) (openExchange s) := ⟨rfl, rfl, rfl⟩
  have first : Stands q (openExchange s) := Stands.handOver (.inl pending)
  have other (stays : q ∈ (openExchange s).zones.queue) :
      q ∈ (openExchange s).zones.queue.filter fun q => q.zone != z := List.mem_filter.2 ⟨stays, bne_iff_ne.2 hz⟩
  by_cases hm : m = .manual
  · subst hm
    rw [setZoneMode_manual h]
    exact (first.setQueue other).congr (sameQueue_entered same)
  · exact (first.setQueue fun stays => List.mem_append_left _ (other stays)).handOver.congr (setZoneMode_places h hm same)

/-- R129, R138: a change of mode leaves an exchange in flight alone. -/
theorem setZoneMode_inFlight {z : Fin 8} {m : ZoneMode} {s : State} (h : (s.zone z).mode ≠ m)
    (hx : s.zones.exchange ≠ none) : (Machine.setZoneMode z m s).zones.exchange = s.zones.exchange ∧
    (Machine.setZoneMode z m s).drive = s.drive := by
  have same : SameQueue s (openExchange s) := by
    rw [openExchange_settled (.inl hx)]
    exact ⟨rfl, rfl, rfl⟩
  by_cases hm : m = .manual
  · subst hm
    rw [setZoneMode_manual h]
    exact ⟨same.exchange, same.drive⟩
  · have places := setZoneMode_places h hm same
    rw [openExchange_settled (.inl (by exact hx))] at places
    exact ⟨places.exchange, places.drive⟩

/-- R129: the data of the reply. -/
theorem zoneModeBytes_setZoneMode {z : Fin 8} {m : ZoneMode} {s : State} {a b : Byte} (ha : a.toNat = z.val)
    (hb : b.toNat = m.code) : zoneModeBytes z (Machine.setZoneMode z m s) =
      [a, b, BitVec.ofNat 8 (s.zone z).driver.code] := by
  have zone : ((Machine.setZoneMode z m s).zone z).mode = m ∧
      ((Machine.setZoneMode z m s).zone z).driver = (s.zone z).driver := by
    by_cases h : (s.zone z).mode = m
    · rw [setZoneMode_same h]
      exact ⟨h, rfl⟩
    · by_cases hm : m = .manual
      · subst hm
        rw [setZoneMode_manual h, zone_entered]
        exact ⟨rfl, rfl⟩
      · rw [zone_setZoneMode h hm]
        exact ⟨rfl, rfl⟩
  rw [zoneModeBytes, zone.1, zone.2, ← ProbePolling.ofNat_eq_of_toNat ha, ← ProbePolling.ofNat_eq_of_toNat hb]
  rfl

end Sys2Proof.DryingSchedule
end

section
/-! CERTIFICATE. O50: SET_ZONE_MODE. -/

namespace Sys2Proof.DryingSchedule

open Sys2Proof.Machine
open Sys2Proof.Safety
open Sys2Proof.Laws

/-- Settles O50: the checks in their order, then the mode entered (`entered`), and for AUTO and OFF the build of its frame
(`setZoneMode_builds`), whose entry, notice and place have a lemma each. -/
theorem setZoneMode : Obligations.SetZoneMode := by
  refine ⟨rfl, rfl, fun f rest s asked => ⟨fun bad => ?length, fun a m hp => ⟨fun out => ?range, fun z mode hz hm => ?sets⟩⟩⟩
  case length => exact congrArg _ (serveRequest_refused asked (setZoneModeBody_badLength bad _))
  case range =>
    refine congrArg _ (serveRequest_refused (why := .range) asked ?_)
    rw [hp]
    exact setZoneModeBody_range out _
  case sets =>
    intro e data kept u others built
    obtain ⟨t, set⟩ : ∃ t, t = Machine.setZoneMode z mode (Taken s rest) := ⟨_, rfl⟩
    have body : setZoneModeBody f.payload (Taken s rest) = done t data := by
      rw [hp, setZoneModeBody_sets hz hm, zoneModeBytes_setZoneMode hz hm, set]
      rfl
    have handler : t.handler = (Taken s rest).handler := by rw [set, (calm_setZoneMode _ _ _).handler]
    have answered : exec .setZoneMode s = .next (Answered s f rest data t) :=
      congrArg Host.Outcome.next (serveRequest_done asked body handler)
    refine ⟨fun same => ?same, fun other => ⟨t, answered, ?_⟩⟩
    case same =>
      rw [answered, set, setZoneMode_same (by exact same)]
      rfl
    have opened : SameQueue u (openExchange (Taken s rest)) := SameQueue.handOver ⟨rfl, rfl, rfl⟩
    have entry (hm : mode ≠ .manual) : t.zone z = built (modeContent s.sequencer mode) := by
      rw [set, zone_setZoneMode (by exact other) hm]
      rfl
    have notices (hm : mode ≠ .manual) : t.notices =
        if clampDue s z (modeContent s.sequencer mode) then
          s.notices.add (clampNoticeOf s z (modeContent s.sequencer mode)) else s.notices := by
      rw [set, notices_setZoneMode (by exact other) hm]
      rfl
    obtain ⟨only, envelope, period, zones⟩ := setZoneMode_keeps (s := Taken s rest) other
    refine ⟨?only, ?envelope, ?period, fun y hy => ?zones, fun q pending hq => ?pending, fun x hx => ?inFlight,
      fun manual => ?manual, fun hm => ?places, fun h => ?idle, fun r w auto he hr hw => ?schedule, fun auto => ?auto,
      fun off => ?off, fun hm => ?stands⟩
    case only => rw [set]; exact zonesOnly_eq only
    case envelope => rw [set, envelope]; rfl
    case period => rw [set, period]; rfl
    case zones => rw [set, zones y hy]; rfl
    case pending => rw [set]; exact stands_setZoneMode (s := Taken s rest) other pending hq
    case inFlight =>
      obtain ⟨exchange, drive⟩ := setZoneMode_inFlight (s := Taken s rest) other
        (by show s.zones.exchange ≠ none; rw [hx]; exact Option.some_ne_none x)
      rw [set, exchange, drive]
      exact ⟨hx, rfl⟩
    case manual =>
      subst manual
      obtain ⟨queue, exchange, drive⟩ := sameQueue_entered (z := z) (m := .manual) opened
      obtain ⟨-, unraised, -⟩ := entered_keeps (z := z) (m := .manual) (s := Taken s rest)
      rw [set, setZoneMode_manual (by exact other), zone_entered, queue, exchange, drive, unraised]
      exact ⟨rfl, fun q hq => bne_iff_ne.1 (List.mem_filter.1 hq).2, rfl, rfl, rfl, rfl⟩
    case places =>
      intro frame placed
      have frame_eq : ({ zone := z, frame := builtFrame s z (modeContent s.sequencer mode)
                         modeAtBuild := mode } : QueuedFrame) = frame := by simp only [frame, entry hm, built]
      have run := setZoneMode_places (s := Taken s rest) other hm opened
      obtain ⟨queue, exchange, drive⟩ : SameQueue (openExchange (u.setQueue (others ++ [frame]))) t := by
        rw [← frame_eq, set]
        exact run
      exact ⟨queue, exchange, drive⟩
    case idle =>
      have hm : mode ≠ .manual := by rintro rfl; obtain ⟨auto, -⟩ | off := h <;> contradiction
      have content : modeContent s.sequencer mode = idleContent := by
        obtain ⟨rfl, he⟩ | rfl := h
        · exact scheduleContent_idle he
        · rfl
      rw [notices hm, entry hm, content]
      exact ⟨rfl, rfl⟩
    case schedule =>
      intro c
      have hm : mode ≠ .manual := by rw [auto]; nofun
      have content : modeContent s.sequencer mode = scheduleContent s.sequencer := by rw [auto]; rfl
      rw [notices hm, entry hm, content, scheduleContent_engaged he hr hw]
      refine ⟨rfl, if_congr ?_ rfl rfl⟩
      rw [clampDue, Bool.and_eq_true, Bool.not_eq_true']
      rfl
    case auto => subst auto; exact entry nofun
    case off => subst off; exact entry nofun
    case stands =>
      rw [set, setZoneMode_builds (by exact other) hm]
      exact placed_buildFrame z _ _

end Sys2Proof.DryingSchedule
end

section
/-! SUPPORT. The envelope's stages (R131), the bytes of a SETPOINT frame (R127, section 11.5) and the code of the clamp marks
(section 11.3). -/

namespace Sys2Proof.ZonesAndDrive

open Sys2Proof.Machine
open Sys2Proof.Safety
open Sys2Proof.Laws

/-! ### The envelope -/

theorem clampPair_eq (lower upper x : Int) : clampPair lower upper x =
    if upper < lower then x else if x < lower then lower else if upper < x then upper else x := by
  by_cases h : lower ≤ upper
  · rw [clampPair, pairEnabled, if_pos (decide_eq_true h), if_neg (not_lt.2 h), clampInt]
  · rw [clampPair, pairEnabled, if_neg (by simpa using h), if_pos (not_le.1 h)]

theorem clampPair_bounds {lower upper : Int} (h : lower ≤ upper) (x : Int) :
    lower ≤ clampPair lower upper x ∧ clampPair lower upper x ≤ upper := by
  rw [clampPair_eq, if_neg (not_lt.2 h)]
  split_ifs <;> omega

/-- R131, stage 2, on the wet-bulb itself. -/
theorem clampDepression_eq (e : Envelope) (dry wet : Int) : clampDepression e dry wet =
    if e.depMax < e.depMin then wet else if dry - wet < e.depMin then dry - e.depMin
      else if e.depMax < dry - wet then dry - e.depMax else wet := by
  rw [clampDepression, clampPair_eq]
  split_ifs <;> omega

/-! ### Flags and marks -/

theorem mul_toNat (k : Nat) (b : Bool) : k * b.toNat = if b then k else 0 := by cases b <;> simp

theorem toNat_eq_ite (b : Bool) : b.toNat = if b then 1 else 0 := by cases b <;> rfl

theorem clampMarks_code_eq (m : ClampMarks) :
    m.code = (if m.dry then 1 else 0) + (if m.depression then 2 else 0) + (if m.wet then 4 else 0) := by
  rw [ClampMarks.code, mul_toNat, mul_toNat, toNat_eq_ite]

theorem clampMarks_code_lt (m : ClampMarks) : m.code < 8 := by
  rw [clampMarks_code_eq]
  split_ifs <;> decide

theorem frameOrigin_code_lt (o : FrameOrigin) : o.code < 3 := by cases o <;> decide

theorem fanDirection_code_eq (d : FanDirection) : 4 * d.code = if d = .reverse then 4 else 0 := by cases d <;> rfl

theorem stage_code_lt (stage : Stage) : stage.code < 6 := by cases stage <;> decide

theorem stageByte_toNat (stage : Stage) : (BitVec.ofNat 8 stage.code).toNat = stage.code :=
  Nat.mod_eq_of_lt ((stage_code_lt stage).trans (by decide))

/-- The flags byte with the origin and marks that fit it. -/
theorem setpointFlags_toNat (sp : Option Setpoints) (run : Bool) (dir : FanDirection) {origin marks : Nat}
    (ho : origin < 3) (hm : marks < 8) : (setpointFlags sp run dir origin marks).toNat =
      (if sp.isSome then 1 else 0) + (if run then 2 else 0) + (if dir = .reverse then 4 else 0) + 8 * origin +
        32 * marks := by
  rw [setpointFlags, toNat_eq_ite, mul_toNat, fanDirection_code_eq, BitVec.toNat_ofNat]
  refine Nat.mod_eq_of_lt ?_
  split_ifs <;> omega

theorem frameFlags_toNat (g : SetpointFrame) :
    (setpointFlags g.setpoints g.fanRun g.direction g.origin.code g.marks.code).toNat =
      (if g.setpoints.isSome then 1 else 0) + (if g.fanRun then 2 else 0) + (if g.direction = .reverse then 4 else 0) +
        8 * g.origin.code + 32 * g.marks.code :=
  setpointFlags_toNat _ _ _ (frameOrigin_code_lt _) (clampMarks_code_lt _)

/-! ### The payload -/

/-- Four bytes at offset `k` hold the dry-bulb and the wet-bulb of setpoints, each 0 when they are absent. -/
def HoldsPoints (d : List Byte) (k : Nat) (sp : Option Setpoints) : Prop :=
  HoldsTemp d k (some ((sp.map (·.dry)).getD 0)) ∧ HoldsTemp d (k + 2) (some ((sp.map (·.wet)).getD 0))

theorem holdsTemp_zero {d : List Byte} {k : Nat} (h : byteAt d k = 0) (h' : byteAt d (k + 1) = 0) :
    HoldsTemp d k (some 0) := by
  intro _ _
  rw [s16At, h, h']
  rfl

theorem setpointBytes_holds (sp : Option Setpoints) : ∃ a b c e, setpointBytes sp = [a, b, c, e] ∧ ∀ d k,
    byteAt d k = a → byteAt d (k + 1) = b → byteAt d (k + 2) = c → byteAt d (k + 3) = e → HoldsPoints d k sp := by
  cases sp with
  | none => exact ⟨_, _, _, _, rfl, fun d k ha hb hc he => ⟨holdsTemp_zero ha hb, holdsTemp_zero hc he⟩⟩
  | some sp =>
    obtain ⟨a, b, dry, hDry⟩ := i2_holds sp.dry
    obtain ⟨c, e, wet, hWet⟩ := i2_holds sp.wet
    exact ⟨a, b, c, e, by rw [setpointBytes, dry, wet]; rfl,
      fun d k ha hb hc he => ⟨hDry d k ha hb, hWet d (k + 2) hc he⟩⟩

/-- The fields of a SETPOINT payload stand at their offsets. -/
structure FrameFields (d : List Byte) (g : SetpointFrame) : Prop where
  length : d.length = 7
  tag    : byteAt d 0 = g.tag
  flags  : (byteAt d 1).toNat = (if g.setpoints.isSome then 1 else 0) + (if g.fanRun then 2 else 0) +
    (if g.direction = .reverse then 4 else 0) + 8 * g.origin.code + 32 * g.marks.code
  stage  : byteAt d 2 = BitVec.ofNat 8 g.stage.code
  points : HoldsPoints d 3 g.setpoints

theorem payload_fields (g : SetpointFrame) : FrameFields g.payload g := by
  obtain ⟨_, _, _, _, points, hPoints⟩ := setpointBytes_holds g.setpoints
  rw [SetpointFrame.payload, points]
  exact {
    length := rfl
    tag := rfl
    flags := frameFlags_toNat g
    stage := rfl
    points := hPoints _ _ rfl rfl rfl rfl }

/-- R167: the last four bytes of a frame without setpoints. -/
theorem payload_unset {g : SetpointFrame} (h : g.setpoints = none) : g.payload.drop 3 = [0, 0, 0, 0] := by
  rw [SetpointFrame.payload, h]
  rfl

end Sys2Proof.ZonesAndDrive
end

section
/-! CERTIFICATE. O23: a frame clamped into the envelope. O26: the oldest frame of the Drive Queue handed over. -/

namespace Sys2Proof.ZonesAndDrive

open Sys2Proof.Machine
open Sys2Proof.Safety
open Sys2Proof.Laws
open Sys2Proof.DryingSchedule

/-- Settles O23: the stages are those of `clampPair_eq` and `clampDepression_eq`. -/
theorem envelopeClamp : Obligations.EnvelopeClamp := by
  intro e sp out dry dep wet2 wet3 wet4
  have stage1 : clampPair e.dryFloor e.dryCeiling sp.dry = dry := clampPair_eq _ _ _
  have stage2 : clampDepression e dry sp.wet = wet2 := clampDepression_eq _ _ _
  have stage3 : clampPair e.wetFloor e.wetCeiling wet2 = wet3 := clampPair_eq _ _ _
  have stage4 : min wet3 dry = wet4 := by
    rw [min_comm, min_def_lt]
  have clamped : out = ({ dry := dry, wet := wet4 },
      { dry := dry != sp.dry, depression := wet2 != sp.wet, wet := wet3 != wet2 || wet4 != wet3 }) := by
    simp only [out, clampSetpoints, stage1, stage2, stage3, stage4]
  rw [clamped]
  refine ⟨rfl, rfl, bne_iff_ne, bne_iff_ne, ?wetMark, ?below, fun enabled => ?inPair⟩
  case wetMark => simp only [Bool.or_eq_true, bne_iff_ne]
  case below => exact stage4 ▸ min_le_right wet3 dry
  case inPair => exact stage1 ▸ clampPair_bounds enabled sp.dry

/-- Settles O26: `openExchange_oldest` and `openExchange_settled`, and the bytes of `payload_fields`. -/
theorem exchangeOpens : Obligations.ExchangeOpens := by
  refine ⟨fun q rest s hx hq hl => ⟨openExchange_oldest hx hq hl, rfl, rfl, ?_⟩,
    fun s h => openExchange_settled (h.imp_right Or.symm)⟩
  intro g p
  have fields : FrameFields p g := payload_fields g
  refine ⟨fields.length, fields.tag, fields.flags.trans ?flags, fields.stage.trans ?stage, payload_unset,
    fun sp present => ?points⟩
  case flags =>
    have present : (if g.setpoints.isSome then 1 else 0) = if g.setpoints = none then 0 else 1 := by
      cases g.setpoints <;> rfl
    have marks : 32 * g.marks.code =
        (if g.marks.dry then 32 else 0) + (if g.marks.depression then 64 else 0) + (if g.marks.wet then 128 else 0) := by
      rw [clampMarks_code_eq]
      split_ifs <;> rfl
    rw [present, marks, ← Nat.add_assoc, ← Nat.add_assoc]
    refine congrArg (· + _ + _ + _) (congrArg₂ (· + ·) (congrArg₂ (· + ·) rfl ?reverse) ?origin)
    case reverse => cases g.direction <;> rfl
    case origin => cases g.origin <;> rfl
  case stage => cases g.stage <;> rfl
  case points =>
    have points := fields.points
    rw [present] at points
    exact points

end Sys2Proof.ZonesAndDrive
end

section
/-! SUPPORT. The envelope requests: the range check and the bytes of the reply (R130). -/

namespace Sys2Proof.ZonesAndDrive

open Sys2Proof.Machine
open Sys2Proof.Safety
open Sys2Proof.Laws

theorem temperatureInRange_iff (x : Int) : temperatureInRange x = true ↔ -400 ≤ x ∧ x ≤ 1500 := by
  simp only [temperatureInRange, Bool.and_eq_true, decide_eq_true_eq]

theorem s16At_eq (p : List Byte) (i : Nat) : s16At p i = (byteAt p i ++ byteAt p (i + 1)).toInt :=
  ProbePolling.s16_eq_append _ _

/-- R130: the six values of a payload, as two-byte signed figures. -/
theorem envelopeOf_eq (p : List Byte) : envelopeOf p =
    let v := fun i : Nat => (byteAt p i ++ byteAt p (i + 1)).toInt
    { dryFloor := v 0, dryCeiling := v 2, wetFloor := v 4, wetCeiling := v 6, depMin := v 8, depMax := v 10 } := by
  simp only [envelopeOf, s16At_eq]

theorem envelopeOk_iff (p : List Byte) : envelopeOk (envelopeOf p) = true ↔
    ∀ i < 6, -400 ≤ (byteAt p (2 * i) ++ byteAt p (2 * i + 1)).toInt ∧
      (byteAt p (2 * i) ++ byteAt p (2 * i + 1)).toInt ≤ 1500 := by
  simp only [← temperatureInRange_iff, ← s16At_eq]
  simp only [envelopeOk, envelopeOf, Bool.and_eq_true, and_assoc, Nat.forall_lt_succ_right, Nat.not_lt_zero,
    IsEmpty.forall_iff, implies_true, true_and, Nat.reduceMul]

theorem flag1_eq (b : Bool) : flag1 b = [if b then 1 else 0] := by cases b <;> rfl

theorem envelopeStates_eq (e : Envelope) : envelopeStates e = [if e.dryFloor ≤ e.dryCeiling then 1 else 0,
    if e.wetFloor ≤ e.wetCeiling then 1 else 0, if e.depMin ≤ e.depMax then 1 else 0] := by
  simp only [envelopeStates, flag1_eq, pairEnabled, decide_eq_true_eq, List.cons_append, List.nil_append]

/-! ### SET_ENVELOPE -/

section

variable {p : List Byte} {s : State}

theorem setEnvelopeBody_badLength (h : p.length ≠ 12) : setEnvelopeBody p s = .error .badLength := if_neg h

theorem setEnvelopeBody_range (h : p.length = 12) (out : envelopeOk (envelopeOf p) ≠ true) :
    setEnvelopeBody p s = .error .range := by
  rw [setEnvelopeBody, if_pos h, if_neg out]

theorem setEnvelopeBody_busy (h : p.length = 12) (ok : envelopeOk (envelopeOf p) = true)
    (engaged : s.sequencer.engaged = true) : setEnvelopeBody p s = .error .busy := by
  rw [setEnvelopeBody, if_pos h, if_pos ok, if_pos engaged]

theorem setEnvelopeBody_stores (h : p.length = 12) (ok : envelopeOk (envelopeOf p) = true)
    (idle : s.sequencer.engaged = false) : setEnvelopeBody p s =
      done (storeEnvelope (envelopeOf p) s) (envelopeStates (envelopeOf p)) := by
  rw [setEnvelopeBody, if_pos h, if_pos ok, if_neg (by rw [idle]; decide)]

end

/-! ### READ_ENVELOPE -/

theorem readEnvelopeBody_payload {p : List Byte} (h : p ≠ []) (s : State) : readEnvelopeBody p s = .error .badLength := by
  cases p with
  | nil => exact absurd rfl h
  | cons => rfl

/-- The fields of the envelope stand at their offsets. -/
structure EnvelopeFields (d : List Byte) (e : Envelope) : Prop where
  length     : d.length = 15
  dryFloor   : HoldsTemp d 0 (some e.dryFloor)
  dryCeiling : HoldsTemp d 2 (some e.dryCeiling)
  wetFloor   : HoldsTemp d 4 (some e.wetFloor)
  wetCeiling : HoldsTemp d 6 (some e.wetCeiling)
  depMin     : HoldsTemp d 8 (some e.depMin)
  depMax     : HoldsTemp d 10 (some e.depMax)
  dry        : byteAt d 12 = if e.dryFloor ≤ e.dryCeiling then 1 else 0
  wet        : byteAt d 13 = if e.wetFloor ≤ e.wetCeiling then 1 else 0
  dep        : byteAt d 14 = if e.depMin ≤ e.depMax then 1 else 0

theorem envelopeBytes_fields (e : Envelope) : EnvelopeFields (envelopeValues e ++ envelopeStates e) e := by
  obtain ⟨_, _, dryFloor, hDryFloor⟩ := i2_holds e.dryFloor
  obtain ⟨_, _, dryCeiling, hDryCeiling⟩ := i2_holds e.dryCeiling
  obtain ⟨_, _, wetFloor, hWetFloor⟩ := i2_holds e.wetFloor
  obtain ⟨_, _, wetCeiling, hWetCeiling⟩ := i2_holds e.wetCeiling
  obtain ⟨_, _, depMin, hDepMin⟩ := i2_holds e.depMin
  obtain ⟨_, _, depMax, hDepMax⟩ := i2_holds e.depMax
  rw [envelopeValues, dryFloor, dryCeiling, wetFloor, wetCeiling, depMin, depMax, envelopeStates_eq]
  exact {
    length := rfl
    dryFloor := hDryFloor _ _ rfl rfl
    dryCeiling := hDryCeiling _ _ rfl rfl
    wetFloor := hWetFloor _ _ rfl rfl
    wetCeiling := hWetCeiling _ _ rfl rfl
    depMin := hDepMin _ _ rfl rfl
    depMax := hDepMax _ _ rfl rfl
    dry := rfl
    wet := rfl
    dep := rfl }

end Sys2Proof.ZonesAndDrive
end

section
/-! CERTIFICATE. O49: SET_ENVELOPE and READ_ENVELOPE. -/

namespace Sys2Proof.ZonesAndDrive

open Sys2Proof.Machine
open Sys2Proof.Safety
open Sys2Proof.Laws

/-- Settles O49: the checks in their order, the six values of `envelopeOf_eq`, and the bytes of `envelopeBytes_fields`. -/
theorem envelopeRequests : Obligations.EnvelopeRequests := by
  refine fun f rest s => ⟨fun asked => ?set, fun asked => ⟨fun bad => ?payload, fun hp => ?read⟩⟩
  case set =>
    intro v fits
    have ok : envelopeOk (envelopeOf f.payload) = true ↔ fits := envelopeOk_iff f.payload
    refine ⟨fun bad => ?length, fun long out => ?range, fun long fit engaged => ?busy, fun long fit idle => ?stores⟩
    case length => exact congrArg _ (serveRequest_refused asked (setEnvelopeBody_badLength bad))
    case range => exact congrArg _ (serveRequest_refused asked (setEnvelopeBody_range long (mt ok.1 out)))
    case busy => exact congrArg _ (serveRequest_refused asked (setEnvelopeBody_busy long (ok.2 fit) engaged))
    case stores =>
      have body := setEnvelopeBody_stores (s := Taken s rest) long (ok.2 fit) idle
      rw [envelopeStates_eq, envelopeOf_eq] at body
      exact congrArg _ (serveRequest_done asked body rfl)
  case payload => exact congrArg _ (serveRequest_refused asked (readEnvelopeBody_payload bad _))
  case read =>
    intro e
    have fields := envelopeBytes_fields e
    exact ⟨_, congrArg _ (serveRequest_read asked (by rw [hp]; rfl)), fields.length, fields.dryFloor, fields.dryCeiling,
      fields.wetFloor, fields.wetCeiling, fields.depMin, fields.depMax, fields.dry, fields.wet, fields.dep⟩

end Sys2Proof.ZonesAndDrive
end

section
/-! SUPPORT. The drive exchange (R138, R139): the status of an answer, a zone's miss, and the screens before an answer. -/

namespace Sys2Proof.ZonesAndDrive

open Sys2Proof.Machine
open Sys2Proof.Safety
open Sys2Proof.Laws

/-! ### The alarm set -/

theorem alarms_code_eq (a : Alarms) : a.code = (if a.overTemp then 1 else 0) + (if a.fanFail then 2 else 0) +
    (if a.waterLow then 4 else 0) + (if a.localControl then 8 else 0) := by
  rw [Alarms.code, mul_toNat, mul_toNat, mul_toNat, toNat_eq_ite]

/-- R138, R167: the alarm set of a STATUS byte is its low four bits. -/
theorem alarms_ofByte_code (b : Byte) : (Alarms.ofByte b).code = (b.extractLsb' 0 4).toNat := by
  have bits : ∀ x : BitVec 4, x.toNat =
      (x.getLsbD 0).toNat + 2 * (x.getLsbD 1).toNat + 4 * (x.getLsbD 2).toNat + 8 * (x.getLsbD 3).toNat := by decide
  rw [bits]
  simp [Alarms.code, Alarms.ofByte]

theorem alarms_any_eq_false_iff (a : Alarms) : a.any = false ↔ a.code = 0 := by
  rw [alarms_code_eq]
  cases h : a.overTemp <;> simp [Alarms.any, h]

theorem alarms_ofByte_any (b : Byte) : (Alarms.ofByte b).any = false ↔ b.extractLsb' 0 4 = 0 := by
  rw [alarms_any_eq_false_iff, alarms_ofByte_code]
  exact ⟨fun h => BitVec.eq_of_toNat_eq h, fun h => congrArg BitVec.toNat h⟩

/-! ### A miss -/

section

variable {z : Fin 8} {s : State}

theorem zoneMiss_below (hd : (s.zone z).driver ≠ .silent)
    (hm : min ((s.zone z).misses + 1) 15 < s.param .driveMissLimit) :
    zoneMiss z s = s.setZone z { s.zone z with misses := min ((s.zone z).misses + 1) 15 } :=
  if_neg fun h => h.elim hd (not_le.2 hm)

theorem zoneMiss_silent
    (h : (s.zone z).driver = .silent ∨ s.param .driveMissLimit ≤ min ((s.zone z).misses + 1) 15) :
    zoneMiss z s = raiseFault (.zone z) .zoneNoAnswer (some (min ((s.zone z).misses + 1) 15 : Nat))
      (s.setZone z { s.zone z with misses := min ((s.zone z).misses + 1) 15, driver := .silent }) :=
  if_pos h

end

/-! ### A frame delivered -/

section

variable {x : DriveExchange} {f : Frame} {s : State} (hx : s.zones.exchange = some x)

include hx

theorem noAnswer_waiting (hw : x.phase = .waiting) : noAnswer s = endExchange (zoneMiss x.entry.zone s) := by
  simp only [noAnswer, hx, hw, if_true]

theorem driveDelivered_sending (hs : x.phase = .sending) : driveDelivered f s = s := by
  simp only [driveDelivered, hx, hs, if_true]

theorem driveDelivered_elsewhere (ha : f.address ≠ 0x50 + BitVec.ofNat 8 x.entry.zone.val) : driveDelivered f s = s := by
  have elsewhere : f.address ≠ Config.driverBase + BitVec.ofNat 8 x.entry.zone.val := ha
  simp only [driveDelivered, hx, if_pos elsewhere, ite_self]

variable (hw : x.phase = .waiting) (ha : f.address = 0x50 + BitVec.ofNat 8 x.entry.zone.val)

include hw ha

/-- R138: a frame from the zone's driver, by the second screen. -/
theorem driveDelivered_here : driveDelivered f s =
    if statusMatches x f then takeStatus x.entry.zone (statusOf f.payload) s else noAnswer s := by
  have here : ¬ f.address ≠ Config.driverBase + BitVec.ofNat 8 x.entry.zone.val := not_not.2 ha
  simp only [driveDelivered, hx, hw, reduceCtorEq, if_false, if_neg here]

theorem driveDelivered_noAnswer
    (h : f.kind ≠ 0x32 ∨ f.payload.length ≠ 9 ∨ byteAt f.payload 0 ≠ x.entry.frame.tag) :
    driveDelivered f s = noAnswer s := by
  rw [driveDelivered_here hx hw ha, if_neg]
  simp only [statusMatches, kindStatus, Bool.and_eq_true, beq_iff_eq]
  tauto

theorem driveDelivered_answer (hk : f.kind = 0x32) (hp : f.payload.length = 9)
    (ht : byteAt f.payload 0 = x.entry.frame.tag) :
    driveDelivered f s = takeStatus x.entry.zone (statusOf f.payload) s := by
  rw [driveDelivered_here hx hw ha, if_pos]
  simp only [statusMatches, hk, kindStatus, hp, ht, beq_self_eq_true, Bool.and_self]

end

/-- R138: the status of a STATUS payload, field by field. -/
theorem statusOf_payload (tag b1 b2 b3 b4 heat vent spray alarms : Byte) :
    statusOf [tag, b1, b2, b3, b4, heat, vent, spray, alarms] =
      { dry := (b1 ++ b2).toInt, wet := (b3 ++ b4).toInt, heat := min heat.toNat 100, vent := min vent.toNat 100
        spray := min spray.toNat 100, alarms := Alarms.ofByte alarms } := by
  rw [statusOf, s16At_eq, s16At_eq]
  rfl

end Sys2Proof.ZonesAndDrive
end

section
/-! CERTIFICATE. O27: a drive answer, and the timeout of one. -/

namespace Sys2Proof.ZonesAndDrive

open Sys2Proof.Machine
open Sys2Proof.Safety
open Sys2Proof.Laws

/-- Settles O27: the timeout is the miss of the exchange's zone (`zoneMiss_below`, `zoneMiss_silent`) and the end of the
exchange; the screens are those of `driveDelivered`, and an answer taken is `statusOf_payload`. -/
theorem driveAnswer : Obligations.DriveAnswer := by
  refine ⟨fun x s hx hw => ?timeout, fun f s hx => ?none, fun x f s hx => ⟨fun hs => driveDelivered_sending hx hs,
    fun _ ha => driveDelivered_elsewhere hx ha, fun hw ha bad => ?missed,
    fun b1 b2 b3 b4 heat vent spray alarms hw hf => ?answer⟩⟩
  case timeout =>
    intro z m ended
    have timeout : exec .driveAnswerTimeout s = .next (ended (zoneMiss z s)) :=
      congrArg Host.Outcome.next (noAnswer_waiting hx hw)
    exact ⟨fun hd hm => by rw [timeout, zoneMiss_below hd hm], fun h => by rw [timeout, zoneMiss_silent h]⟩
  case none => simp only [driveDelivered, hx]
  case missed => exact congrArg Host.Outcome.next (driveDelivered_noAnswer hx hw ha bad).symm
  case answer =>
    intro set u v
    have status : statusOf f.payload = { dry := (b1 ++ b2).toInt, wet := (b3 ++ b4).toInt, heat := min heat.toNat 100
                                         vent := min vent.toNat 100, spray := min spray.toNat 100, alarms := set } := by
      rw [hf]
      exact statusOf_payload _ _ _ _ _ _ _ _ _
    have quiet : set.any = false ↔ alarms.extractLsb' 0 4 = 0 := alarms_ofByte_any alarms
    have raised : (if set.any then raiseFault (.zone x.entry.zone) .zoneAlarm (some (set.code : Nat)) u else u) = v := by
      by_cases h : set.any = false
      · simp only [v, if_pos (quiet.1 h), h, Bool.false_eq_true, if_false]
      · have code : set.code = (alarms.extractLsb' 0 4).toNat := alarms_ofByte_code alarms
        rw [if_pos (Bool.of_not_eq_false h), code]
        exact (if_neg (mt quiet.2 h)).symm
    rw [driveDelivered_answer hx hw (by rw [hf]) (by rw [hf]) (by rw [hf]; rfl) (by rw [hf]; rfl), status, ← raised]
    rfl

end Sys2Proof.ZonesAndDrive
end

section
/-! SUPPORT. The bytes of READ_ZONE (R142), field by field. -/

namespace Sys2Proof.ZonesAndDrive

open Sys2Proof.Machine
open Sys2Proof.Safety
open Sys2Proof.Laws

/-! ### The manual record and the last status -/

/-- Six bytes at offset `k` hold a manual record, or stand for an absent one. -/
def HoldsManual (d : List Byte) (k : Nat) : Option ManualRecord → Prop
  | none => byteAt d k = 0 ∧ byteAt d (k + 1) = 0xFF ∧ HoldsTemp d (k + 2) none ∧ HoldsTemp d (k + 4) none
  | some r => (byteAt d k).toNat = (if r.setpoints.isSome then 1 else 0) + (if r.fanRun then 2 else 0) +
      (if r.direction = .reverse then 4 else 0) ∧ (byteAt d (k + 1)).toNat = r.stage.code ∧
      HoldsPoints d (k + 2) r.setpoints

theorem manualBytes_holds (m : Option ManualRecord) : ∃ a₀ a₁ a₂ a₃ a₄ a₅, manualBytes m = [a₀, a₁, a₂, a₃, a₄, a₅] ∧
    ∀ d k, byteAt d k = a₀ → byteAt d (k + 1) = a₁ → byteAt d (k + 2) = a₂ → byteAt d (k + 3) = a₃ →
      byteAt d (k + 4) = a₄ → byteAt d (k + 5) = a₅ → HoldsManual d k m := by
  cases m with
  | none => exact ⟨_, _, _, _, _, _, rfl, fun d k h₀ h₁ h₂ h₃ h₄ h₅ => ⟨h₀, h₁, ⟨h₂, h₃⟩, h₄, h₅⟩⟩
  | some r =>
    obtain ⟨a₂, a₃, a₄, a₅, points, hPoints⟩ := setpointBytes_holds r.setpoints
    refine ⟨_, _, a₂, a₃, a₄, a₅, by rw [manualBytes, points]; rfl, fun d k h₀ h₁ h₂ h₃ h₄ h₅ => ⟨?_, ?_, ?_⟩⟩
    · rw [h₀]
      exact setpointFlags_toNat _ _ _ (origin := 0) (marks := 0) (by decide) (by decide)
    · rw [h₁]
      exact stageByte_toNat r.stage
    · exact hPoints d (k + 2) h₂ h₃ h₄ h₅

/-- R167: a status' fields, each absent where there is no status. -/
theorem statusBytes_eq (st : Option DriverStatus) : statusBytes st = optTemp (st.map (·.dry)) ++ optTemp (st.map (·.wet)) ++
    opt1 (st.map (·.heat)) ++ opt1 (st.map (·.vent)) ++ opt1 (st.map (·.spray)) ++ opt1 (st.map (·.alarms.code)) := by
  cases st <;> rfl

theorem fresh_iff (e : ZoneEntry) : e.fresh = true ↔ e.lastStatus ≠ none ∧ e.age ≤ 2 := by
  rw [ZoneEntry.fresh, Bool.and_eq_true, decide_eq_true_eq, Option.isSome_iff_ne_none]

/-! ### The reply -/

/-- The fields of a zone, with its pending frame and its exchange in flight, stand at their offsets. -/
structure ZoneFields (d : List Byte) (z : Fin 8) (e : ZoneEntry) (q : Option QueuedFrame)
    (x : Option DriveExchange) : Prop where
  length        : d.length = 34
  number        : byteAt d 0 = BitVec.ofNat 8 z.val
  mode          : (byteAt d 1).toNat = e.mode.code
  driver        : (byteAt d 2).toNat = e.driver.code
  misses        : Holds1 d 3 (some e.misses)
  dry           : HoldsTemp d 4 (e.lastStatus.map (·.dry))
  wet           : HoldsTemp d 6 (e.lastStatus.map (·.wet))
  heat          : Holds1 d 8 (e.lastStatus.map (·.heat))
  vent          : Holds1 d 9 (e.lastStatus.map (·.vent))
  spray         : Holds1 d 10 (e.lastStatus.map (·.spray))
  alarms        : Holds1 d 11 (e.lastStatus.map (·.alarms.code))
  age           : Holds1 d 12 (some e.age)
  fresh         : byteAt d 13 = if e.lastStatus ≠ none ∧ e.age ≤ 2 then 1 else 0
  manual        : HoldsManual d 14 e.manual
  tag           : byteAt d 20 = e.lastBuilt.tag
  flags         : (byteAt d 21).toNat = (if e.lastBuilt.setpoints.isSome then 1 else 0) +
    (if e.lastBuilt.fanRun then 2 else 0) + (if e.lastBuilt.direction = .reverse then 4 else 0) +
    8 * e.lastBuilt.origin.code + 32 * e.lastBuilt.marks.code
  stage         : (byteAt d 22).toNat = e.lastBuilt.stage.code
  points        : HoldsPoints d 23 e.lastBuilt.setpoints
  nextTag       : byteAt d 27 = e.nextTag
  clampedLast   : byteAt d 28 = if e.clampedLast then 1 else 0
  pending       : byteAt d 29 = if q.isSome then 1 else 0
  pendingTag    : Holds1 d 30 (q.map (·.frame.tag.toNat))
  inFlight      : byteAt d 31 = if x.isSome then 1 else 0
  inFlightPhase : Holds1 d 32 (x.map (·.phase.code))
  inFlightTag   : Holds1 d 33 (x.map (·.entry.frame.tag.toNat))

theorem zoneBytes_fields (z : Fin 8) (s : State) : ZoneFields (zoneBytes z s) z (s.zone z)
    (zonePending (openExchange s) z) (zoneExchange (openExchange s) z) := by
  obtain ⟨_, misses, hMisses⟩ := b1_holds (s.zone z).misses
  obtain ⟨_, _, dry, hDry⟩ := optTemp_holds ((s.zone z).lastStatus.map (·.dry))
  obtain ⟨_, _, wet, hWet⟩ := optTemp_holds ((s.zone z).lastStatus.map (·.wet))
  obtain ⟨_, heat, hHeat⟩ := opt1_holds ((s.zone z).lastStatus.map (·.heat))
  obtain ⟨_, vent, hVent⟩ := opt1_holds ((s.zone z).lastStatus.map (·.vent))
  obtain ⟨_, spray, hSpray⟩ := opt1_holds ((s.zone z).lastStatus.map (·.spray))
  obtain ⟨_, alarms, hAlarms⟩ := opt1_holds ((s.zone z).lastStatus.map (·.alarms.code))
  obtain ⟨_, age, hAge⟩ := b1_holds (s.zone z).age
  obtain ⟨_, _, _, _, _, _, manual, hManual⟩ := manualBytes_holds (s.zone z).manual
  obtain ⟨_, _, _, _, points, hPoints⟩ := setpointBytes_holds (s.zone z).lastBuilt.setpoints
  obtain ⟨_, pendingTag, hPendingTag⟩ := opt1_holds ((zonePending (openExchange s) z).map (·.frame.tag.toNat))
  obtain ⟨_, phase, hPhase⟩ := opt1_holds ((zoneExchange (openExchange s) z).map (·.phase.code))
  obtain ⟨_, tag, hTag⟩ := opt1_holds ((zoneExchange (openExchange s) z).map (·.entry.frame.tag.toNat))
  unfold zoneBytes SetpointFrame.payload
  dsimp only
  rw [statusBytes_eq, misses, dry, wet, heat, vent, spray, alarms, age, manual, points, pendingTag, phase, tag]
  simp only [flag1_eq, b1, List.cons_append, List.nil_append]
  exact {
    length := rfl
    number := rfl
    mode := by
      show (BitVec.ofNat 8 (s.zone z).mode.code).toNat = _
      cases (s.zone z).mode <;> rfl
    driver := by
      show (BitVec.ofNat 8 (s.zone z).driver.code).toNat = _
      cases (s.zone z).driver <;> rfl
    misses := hMisses _ _ rfl
    dry := hDry _ _ rfl rfl
    wet := hWet _ _ rfl rfl
    heat := hHeat _ _ rfl
    vent := hVent _ _ rfl
    spray := hSpray _ _ rfl
    alarms := hAlarms _ _ rfl
    age := hAge _ _ rfl
    fresh := if_congr (fresh_iff _) rfl rfl
    manual := hManual _ _ rfl rfl rfl rfl rfl rfl
    tag := rfl
    flags := frameFlags_toNat _
    stage := stageByte_toNat _
    points := hPoints _ _ rfl rfl rfl rfl
    nextTag := rfl
    clampedLast := rfl
    pending := rfl
    pendingTag := hPendingTag _ _ rfl
    inFlight := rfl
    inFlightPhase := hPhase _ _ rfl
    inFlightTag := hTag _ _ rfl }

theorem holds1_byte {d : List Byte} {k : Nat} {b : Byte} (h : Holds1 d k (some b.toNat)) : byteAt d k = b :=
  BitVec.eq_of_toNat_eq (h.trans (Nat.mod_eq_of_lt b.isLt))

section

variable {d : List Byte} {z : Fin 8} {e : ZoneEntry} {t : State}
  (fields : ZoneFields d z e (zonePending t z) (zoneExchange t z))

include fields

theorem zoneFields_notPending (h : ∀ q ∈ t.zones.queue, q.zone ≠ z) : byteAt d 29 = 0 ∧ byteAt d 30 = 0xFF := by
  have pending : zonePending t z = none := List.find?_eq_none.2 fun q hq => by simpa using h q hq
  obtain ⟨flag, tag⟩ := And.intro fields.pending fields.pendingTag
  rw [pending] at flag tag
  exact ⟨flag, tag⟩

theorem zoneFields_pending (h : ∃ q ∈ t.zones.queue, q.zone = z) :
    byteAt d 29 = 1 ∧ ∃ q ∈ t.zones.queue, q.zone = z ∧ byteAt d 30 = q.frame.tag := by
  obtain ⟨q, pending⟩ : ∃ q, zonePending t z = some q :=
    Option.isSome_iff_exists.1 (List.find?_isSome.2 (by simpa using h))
  obtain ⟨flag, tag⟩ := And.intro fields.pending fields.pendingTag
  rw [pending] at flag tag
  exact ⟨flag, q, List.mem_of_find?_eq_some pending, by simpa using List.find?_some pending, holds1_byte tag⟩

theorem zoneFields_notInFlight (h : ∀ x, t.zones.exchange = some x → x.entry.zone ≠ z) :
    byteAt d 31 = 0 ∧ byteAt d 32 = 0xFF ∧ byteAt d 33 = 0xFF := by
  have inFlight : zoneExchange t z = none := Option.filter_eq_none_iff.2 fun x hx => by simpa using h x hx
  obtain ⟨flag, phase, tag⟩ := And.intro fields.inFlight (And.intro fields.inFlightPhase fields.inFlightTag)
  rw [inFlight] at flag phase tag
  exact ⟨flag, phase, tag⟩

theorem zoneFields_inFlight {x : DriveExchange} (hx : t.zones.exchange = some x) (hz : x.entry.zone = z) :
    byteAt d 31 = 1 ∧ byteAt d 32 = (if x.phase = .waiting then 1 else 0) ∧ byteAt d 33 = x.entry.frame.tag := by
  have inFlight : zoneExchange t z = some x := Option.filter_eq_some_iff.2 ⟨hx, beq_iff_eq.2 hz⟩
  obtain ⟨flag, phase, tag⟩ := And.intro fields.inFlight (And.intro fields.inFlightPhase fields.inFlightTag)
  rw [inFlight] at flag phase tag
  refine ⟨flag, BitVec.eq_of_toNat_eq (phase.trans ?_), holds1_byte tag⟩
  show x.phase.code % 256 = _
  cases x.phase <;> rfl

end

/-! ### The request's checks -/

theorem readZoneBody_badLength {p : List Byte} (h : p.length ≠ 1) (s : State) : readZoneBody p s = .error .badLength := by
  match p, h with
  | [], _ => rfl
  | [_], h => exact absurd rfl h
  | _ :: _ :: _, _ => rfl

theorem readZoneBody_range {n : Byte} (h : 7 < n.toNat) (s : State) : readZoneBody [n] s = .error .range := by
  simp only [readZoneBody, ProbePolling.indexOf_eq_none.2 h]

theorem readZoneBody_reads {n : Byte} {z : Fin 8} (h : n.toNat = z.val) (s : State) :
    readZoneBody [n] s = done s (zoneBytes z s) := by
  simp only [readZoneBody, ProbePolling.indexOf_eq_some.2 h]

end Sys2Proof.ZonesAndDrive
end

section
/-! CERTIFICATE. O51: READ_ZONE. -/

namespace Sys2Proof.ZonesAndDrive

open Sys2Proof.Machine
open Sys2Proof.Safety
open Sys2Proof.Laws
open Sys2Proof.DryingSchedule

/-- Settles O51: the checks, and the bytes of `zoneBytes_fields`, the pending frame and the exchange those left by the
hand-over that is due. -/
theorem readZone : Obligations.ReadZone := by
  refine ⟨rfl, rfl, rfl, rfl, clampMarks_code_eq, alarms_code_eq, fun f rest s asked => ⟨fun bad => ?length,
    fun n hp => ⟨fun out => ?range, fun z hz => ?reads⟩⟩⟩
  case length => exact congrArg _ (serveRequest_refused asked (readZoneBody_badLength bad _))
  case range => exact congrArg _ (serveRequest_refused asked (by rw [hp]; exact readZoneBody_range out _))
  case reads =>
    intro e b due flags points
    have fields : ZoneFields (zoneBytes z (Taken s rest)) z e _ _ := zoneBytes_fields z (Taken s rest)
    have same : SameQueue (openExchange s) (openExchange (Taken s rest)) := SameQueue.handOver ⟨rfl, rfl, rfl⟩
    have queue : (openExchange (Taken s rest)).zones.queue = due.queue := same.queue
    have exchange : (openExchange (Taken s rest)).zones.exchange = due.exchange := same.exchange
    have manual := fields.manual
    refine ⟨zoneBytes z (Taken s rest), congrArg _ (serveRequest_read asked (by rw [hp]; exact readZoneBody_reads hz _)),
      fields.length, fields.number.trans (ProbePolling.ofNat_eq_of_toNat hz), fields.mode, fields.driver, fields.misses,
      fields.dry, fields.wet, fields.heat, fields.vent, fields.spray, fields.alarms, fields.age, fields.fresh,
      fun absent => ?absent, fun r present => ?present, fields.tag, fields.flags, fields.stage, fields.points,
      fields.nextTag, fields.clampedLast, ?pending⟩
    case absent => rwa [absent] at manual
    case present => rwa [present] at manual
    case pending =>
      rw [← queue, ← exchange]
      exact ⟨zoneFields_notPending fields, zoneFields_pending fields, zoneFields_notInFlight fields,
        fun x => zoneFields_inFlight fields⟩

end Sys2Proof.ZonesAndDrive
end

section
/-! SUPPORT. The checks of a ZONE SET frame and the zones it names (R133 to R135). -/

namespace Sys2Proof.ZonesAndDrive

open Sys2Proof.Machine
open Sys2Proof.Safety
open Sys2Proof.Laws

/-! ### The record of a payload -/

theorem stage_ofCode_iff {n : Nat} {stage : Stage} : Stage.ofCode n = some stage ↔ stage.code = n := by
  constructor
  · intro h
    unfold Stage.ofCode at h
    split at h <;> cases h <;> rfl
  · rintro rfl
    cases stage <;> rfl

theorem stage_of_range {n : Nat} (h : n ≤ 5) : ∃ stage : Stage, stage.code = n := by
  interval_cases n
  exacts [⟨.none, rfl⟩, ⟨.heatUp, rfl⟩, ⟨.dry, rfl⟩, ⟨.equalize, rfl⟩, ⟨.condition, rfl⟩, ⟨.cool, rfl⟩]

/-- R133, check 3: the stage code names a stage, and setpoints that are present lie in range. -/
def ZoneSetFits (p : List Byte) : Prop :=
  (byteAt p 2).toNat ≤ 5 ∧ ((byteAt p 1).getLsbD 0 = true →
    (-400 ≤ (byteAt p 3 ++ byteAt p 4).toInt ∧ (byteAt p 3 ++ byteAt p 4).toInt ≤ 1500) ∧
    (-400 ≤ (byteAt p 5 ++ byteAt p 6).toInt ∧ (byteAt p 5 ++ byteAt p 6).toInt ≤ 1500))

theorem manualOf_eq (p : List Byte) (stage : Stage) : manualOf p stage =
    { fanRun := (byteAt p 1).getLsbD 1, direction := if (byteAt p 1).getLsbD 2 then .reverse else .forward, stage := stage
      setpoints := if (byteAt p 1).getLsbD 0 then
        some { dry := (byteAt p 3 ++ byteAt p 4).toInt, wet := (byteAt p 5 ++ byteAt p 6).toInt } else none } := by
  rw [manualOf, s16At_eq, s16At_eq]

theorem zoneSetFits_iff {p : List Byte} {stage : Stage} (h : stage.code = (byteAt p 2).toNat) :
    setpointsInRange (manualOf p stage).setpoints = true ↔ ZoneSetFits p := by
  have named : (byteAt p 2).toNat ≤ 5 := h ▸ Nat.le_of_lt_succ (stage_code_lt stage)
  rw [manualOf_eq, ZoneSetFits]
  cases (byteAt p 1).getLsbD 0 with
  | false => simp [setpointsInRange, named]
  | true => simp [setpointsInRange, temperatureInRange_iff, named]

theorem zoneSetRecord_fits {p : List Byte} (h : ZoneSetFits p) :
    ∃ stage : Stage, stage.code = (byteAt p 2).toNat ∧ zoneSetRecord p = some (manualOf p stage) := by
  obtain ⟨stage, code⟩ := stage_of_range h.1
  exact ⟨stage, code, by simp only [zoneSetRecord, stage_ofCode_iff.2 code, (zoneSetFits_iff code).2 h, if_true]⟩

theorem zoneSetRecord_outside {p : List Byte} (h : ¬ ZoneSetFits p) : zoneSetRecord p = none := by
  unfold zoneSetRecord
  split
  · next stage named => exact if_neg (mt (zoneSetFits_iff (stage_ofCode_iff.1 named)).1 h)
  · rfl

/-! ### The checks in their order -/

section

variable {target : ZoneTarget} {kind : Byte} {p : List Byte} {s : State}

theorem zoneSetBody_badKind (hk : kind ≠ kindSetpoint) : zoneSetBody target kind p s = .error .badKind := if_pos hk

variable (hk : kind = kindSetpoint)

include hk

theorem zoneSetBody_badLength (hp : p.length ≠ 7) : zoneSetBody target kind p s = .error .badLength := by
  rw [zoneSetBody, if_neg (not_not.2 hk), if_pos hp]

variable (hp : p.length = 7)

include hp

theorem zoneSetBody_range (h : ¬ ZoneSetFits p) : zoneSetBody target kind p s = .error .range := by
  rw [zoneSetBody, if_neg (not_not.2 hk), if_neg (not_not.2 hp), zoneSetRecord_outside h]

theorem zoneSetBody_refuses {why : RefusalReason} (h : ZoneSetFits p) (refused : zoneSetRefusal s target = some why) :
    zoneSetBody target kind p s = .error why := by
  obtain ⟨stage, -, record⟩ := zoneSetRecord_fits h
  simp only [zoneSetBody, if_neg (not_not.2 hk), if_neg (not_not.2 hp), record, refused]

theorem zoneSetBody_accepts {r : ManualRecord} (record : zoneSetRecord p = some r)
    (free : zoneSetRefusal s target = none) :
    zoneSetBody target kind p s = acceptZoneSet r (zoneSetZones s target) s := by
  simp only [zoneSetBody, if_neg (not_not.2 hk), if_neg (not_not.2 hp), record, free]

end

/-! ### The zones named -/

theorem zoneSetRefusal_free {s : State} {target : ZoneTarget}
    (h : ∀ z, target = .one z → (s.zone z).mode = .manual) : zoneSetRefusal s target = none := by
  cases target with
  | all => rfl
  | one z => rw [zoneSetRefusal, h z rfl]; rfl

theorem filter_finRange_eq : ∀ z : Fin 8, ((List.finRange 8).filter fun y => decide (y = z)) = [z] := by decide

/-- R134, R135: the zones of a frame accepted are the zones named that are in MANUAL. -/
theorem zoneSetZones_eq {s : State} {target : ZoneTarget} {builds : Fin 8 → Bool}
    (h : ∀ z, target = .one z → (s.zone z).mode = .manual)
    (hb : ∀ z, builds z = true ↔ (target = .one z ∨ target = .all) ∧ (s.zone z).mode = .manual) :
    zoneSetZones s target = (List.finRange 8).filter builds := by
  cases target with
  | all =>
    refine List.filter_congr fun z _ => Bool.eq_iff_iff.2 ?_
    rw [hb, beq_iff_eq]
    simp
  | one z =>
    rw [zoneSetZones, ← filter_finRange_eq z]
    refine List.filter_congr fun y _ => Bool.eq_iff_iff.2 ?_
    rw [hb, decide_eq_true_eq]
    constructor
    · rintro rfl
      exact ⟨.inl rfl, h y rfl⟩
    · rintro ⟨named | all, -⟩
      · exact (ZoneTarget.one.inj named).symm
      · cases all

/-- R134, R135: a frame that passes the checks is taken by each zone named that is in MANUAL. -/
theorem zoneSetBody_takes {s : State} {target : ZoneTarget} {kind : Byte} {p : List Byte} {builds : Fin 8 → Bool}
    (hk : kind = kindSetpoint) (hp : p.length = 7) (fits : ZoneSetFits p)
    (h : ∀ z, target = .one z → (s.zone z).mode = .manual)
    (hb : ∀ z, builds z = true ↔ (target = .one z ∨ target = .all) ∧ (s.zone z).mode = .manual) :
    ∃ stage : Stage, stage.code = (byteAt p 2).toNat ∧ zoneSetBody target kind p s =
      acceptZoneSet (manualOf p stage) ((List.finRange 8).filter builds) s := by
  obtain ⟨stage, code, record⟩ := zoneSetRecord_fits fits
  exact ⟨stage, code, by rw [zoneSetBody_accepts hk hp record (zoneSetRefusal_free h), zoneSetZones_eq h hb]⟩

end Sys2Proof.ZonesAndDrive
end

section
/-! SUPPORT. A ZONE SET accepted as a run of builds (R134, R135): the manual records may be written ahead of all builds. -/

namespace Sys2Proof.ZonesAndDrive

open Sys2Proof.Machine
open Sys2Proof.Safety
open Sys2Proof.Laws
open Sys2Proof.DryingSchedule

/-! ### The records written -/

/-- R134: a zone's manual record written. -/
def setManual (r : ManualRecord) (s : State) (z : Fin 8) : State := s.setZone z { s.zone z with manual := some r }

theorem setZone_comm {y z : Fin 8} (h : y ≠ z) (s : State) (a b : ZoneEntry) :
    (s.setZone z a).setZone y b = (s.setZone y b).setZone z a := by
  simp only [State.setZone, Vector.set_comm a b fun e => h (Fin.ext e.symm)]

theorem setManual_openExchange (r : ManualRecord) (s : State) (y : Fin 8) :
    setManual r (openExchange s) y = openExchange (setManual r s y) := by
  by_cases h : s.zones.exchange ≠ none ∨ s.drive.lineState ≠ .running ∨ s.zones.queue = []
  · rw [openExchange_settled h, openExchange_settled]
    exact h
  · push Not at h
    obtain ⟨hx, hl, hq⟩ := h
    obtain ⟨q, rest, hq⟩ := List.exists_cons_of_ne_nil hq
    rw [openExchange_oldest hx hq hl, openExchange_oldest (s := setManual r s y) hx hq hl]
    rfl

theorem setManual_enqueueFrame (r : ManualRecord) (q : QueuedFrame) (s : State) (y : Fin 8) :
    setManual r (enqueueFrame q s) y = enqueueFrame q (setManual r s y) := by
  rw [enqueueFrame, enqueueFrame, setManual_openExchange, ← setManual_openExchange r s]
  rfl

section

variable {y z : Fin 8} (h : y ≠ z) (r : ManualRecord) (c : FrameContent) (s : State)

include h

theorem sameFor_setManual : SameFor z s (setManual r s y) := ⟨State.zone_setZone_ne _ _ _ _ h, rfl, rfl, rfl⟩

theorem setManual_recorded : setManual r (recorded z c s) y = recorded z c (setManual r s y) := by
  have same := sameFor_setManual h r s
  have other : (recorded z c s).zone y = s.zone y := State.zone_setZone_ne _ _ _ _ h.symm
  have due : clampDue (setManual r s y) z c = clampDue s z c := by
    rw [clampDue, clampDue, builtFrame_congr same, same.zone]
  have notice : clampNoticeOf (setManual r s y) z c = clampNoticeOf s z c := by
    rw [clampNoticeOf, clampNoticeOf, builtFrame_congr same]
    rfl
  rw [setManual, other, recorded, recorded, builtZone_congr same, due, notice]
  exact congrArg (fun t : State =>
    { t with notices := if clampDue s z c then s.notices.add (clampNoticeOf s z c) else s.notices })
    (setZone_comm h s _ _)

/-- A zone's record may be written before or after the build of another zone. -/
theorem setManual_buildFrame : setManual r (buildFrame z c s) y = buildFrame z c (setManual r s y) := by
  rw [buildFrame_eq, setManual_enqueueFrame, setManual_recorded h, buildFrame_eq,
    builtEntry_congr (sameFor_setManual h r s)]

end

/-- R134, R135: the manual records of zones written in turn. -/
def manualsSet (r : ManualRecord) (zones : List (Fin 8)) (s : State) : State := zones.foldl (setManual r) s

section

variable (r : ManualRecord) (zones : List (Fin 8)) (s : State)

/-- The records written change the Zone Table alone. -/
theorem manualsSet_eq : ∃ table, manualsSet r zones s = { s with zones := { s.zones with table := table } } := by
  unfold manualsSet
  induction zones generalizing s with
  | nil => exact ⟨s.zones.table, rfl⟩
  | cons y ys ih =>
    obtain ⟨table, h⟩ := ih (setManual r s y)
    exact ⟨table, h⟩

theorem zone_manualsSet (z : Fin 8) : (manualsSet r zones s).zone z =
    if z ∈ zones then { s.zone z with manual := some r } else s.zone z := by
  unfold manualsSet
  induction zones generalizing s with
  | nil => rfl
  | cons y ys ih =>
    rw [List.foldl_cons, ih]
    by_cases h : y = z
    · subst h
      simp [setManual]
    · rw [setManual, State.zone_setZone_ne _ _ _ _ h]
      simp [Ne.symm h]

theorem manualsSet_keeps : SameQueue s (manualsSet r zones s) ∧ (manualsSet r zones s).notices = s.notices ∧
    (manualsSet r zones s).uptime = s.uptime ∧ (manualsSet r zones s).zones.envelope = s.zones.envelope ∧
    (manualsSet r zones s).zones.periodTimer = s.zones.periodTimer := by
  obtain ⟨table, h⟩ := manualsSet_eq r zones s
  rw [h]
  exact ⟨⟨rfl, rfl, rfl⟩, rfl, rfl, rfl, rfl⟩

/-- A frame built does not depend on the record held; nor does where it goes, or the notice it raises. -/
theorem builtFrame_manualsSet (z : Fin 8) (c : FrameContent) :
    builtFrame (manualsSet r zones s) z c = builtFrame s z c := by
  obtain ⟨-, -, -, envelope, -⟩ := manualsSet_keeps r zones s
  rw [builtFrame, builtFrame, envelope, zone_manualsSet]
  split <;> rfl

theorem builtEntry_manualsSet (z : Fin 8) (c : FrameContent) :
    builtEntry (manualsSet r zones s) z c = builtEntry s z c := by
  rw [builtEntry, builtEntry, builtFrame_manualsSet, zone_manualsSet]
  split <;> rfl

theorem clampDue_manualsSet (z : Fin 8) (c : FrameContent) :
    clampDue (manualsSet r zones s) z c = clampDue s z c := by
  rw [clampDue, clampDue, builtFrame_manualsSet, zone_manualsSet]
  split <;> rfl

theorem clampNoticeOf_manualsSet (z : Fin 8) (c : FrameContent) :
    clampNoticeOf (manualsSet r zones s) z c = clampNoticeOf s z c := by
  obtain ⟨-, -, uptime, -, -⟩ := manualsSet_keeps r zones s
  rw [clampNoticeOf, clampNoticeOf, builtFrame_manualsSet, uptime]

variable {zones}

theorem manualsSet_buildFrame {z : Fin 8} (h : z ∉ zones) (c : FrameContent) :
    manualsSet r zones (buildFrame z c s) = buildFrame z c (manualsSet r zones s) := by
  unfold manualsSet
  induction zones generalizing s with
  | nil => rfl
  | cons y ys ih =>
    obtain ⟨ne, rest⟩ := not_or.1 (mt List.mem_cons.2 h)
    rw [List.foldl_cons, List.foldl_cons, setManual_buildFrame (Ne.symm ne), ih _ rest]

/-- R134, R135: the records of all zones written, then the run of their builds. -/
theorem applyZoneSet_eq (distinct : zones.Nodup) :
    applyZoneSet r zones s = buildRun (fun _ => manualContent r) zones (manualsSet r zones s) := by
  induction zones generalizing s with
  | nil => rfl
  | cons y ys ih =>
    obtain ⟨fresh, distinct⟩ := List.nodup_cons.1 distinct
    calc applyZoneSet r (y :: ys) s = applyZoneSet r ys (buildFrame y (manualContent r) (setManual r s y)) := rfl
      _ = buildRun (fun _ => manualContent r) ys
          (buildFrame y (manualContent r) (manualsSet r ys (setManual r s y))) := by
        rw [ih _ distinct, manualsSet_buildFrame r _ fresh]
      _ = _ := rfl

end

/-! ### What the frame accepted leaves -/

theorem later_openExchange (s : State) (zones : List (Fin 8)) : Later (openExchange s) zones :=
  (openExchange_leaves s).imp_right (·.imp_right fun empty => by simp [empty])

section

variable (r : ManualRecord) (builds : Fin 8 → Bool) (s : State)

theorem zonesOnly_applyZoneSet (zones : List (Fin 8)) : ZonesOnly s (applyZoneSet r zones s) :=
  ZonesOnly.foldl (fun s _ => ZonesOnly.trans ⟨_, s.drive.slot, s.notices, rfl⟩ (zonesOnly_buildFrame _ _ _)) _ s

theorem calm_applyZoneSet (zones : List (Fin 8)) : Calm s (applyZoneSet r zones s) :=
  Calm.foldl (fun s z => calm_takeManual z r s) _ s

theorem applyZoneSet_run : applyZoneSet r ((List.finRange 8).filter builds) s =
    buildRun (fun _ => manualContent r) ((List.finRange 8).filter builds)
      (manualsSet r ((List.finRange 8).filter builds) s) :=
  applyZoneSet_eq r s ((List.nodup_finRange 8).filter builds)

theorem applyZoneSet_keeps :
    (applyZoneSet r ((List.finRange 8).filter builds) s).zones.envelope = s.zones.envelope ∧
    (applyZoneSet r ((List.finRange 8).filter builds) s).zones.periodTimer = s.zones.periodTimer := by
  obtain ⟨-, -, -, envelope, period⟩ := manualsSet_keeps r ((List.finRange 8).filter builds) s
  rw [applyZoneSet_run]
  obtain ⟨envelope', period'⟩ := buildRun_keeps (fun _ => manualContent r) (zones := (List.finRange 8).filter builds)
    (manualsSet r ((List.finRange 8).filter builds) s)
  exact ⟨envelope'.trans envelope, period'.trans period⟩

theorem notices_applyZoneSet : (applyZoneSet r ((List.finRange 8).filter builds) s).notices =
    ((List.finRange 8).filter fun z => builds z && clampDue s z (manualContent r)).foldl
      (fun q z => q.add (clampNoticeOf s z (manualContent r))) s.notices := by
  obtain ⟨-, notices, -, -, -⟩ := manualsSet_keeps r ((List.finRange 8).filter builds) s
  rw [applyZoneSet_run, ← notices]
  exact notices_run (fun z => by rw [clampDue_manualsSet]) fun z _ => clampNoticeOf_manualsSet r _ s z _

variable {builds s}

theorem zone_applyZoneSet_other {z : Fin 8} (h : builds z ≠ true) :
    (applyZoneSet r ((List.finRange 8).filter builds) s).zone z = s.zone z := by
  have outside : z ∉ (List.finRange 8).filter builds := fun mem => h (List.mem_filter.1 mem).2
  rw [applyZoneSet_run, zone_buildRun_other _ _ outside, zone_manualsSet, if_neg outside]

/-- R127, R134: the entry of a zone that takes the frame, and where the frame built stands. -/
theorem zone_applyZoneSet {z : Fin 8} (h : builds z = true) :
    (applyZoneSet r ((List.finRange 8).filter builds) s).zone z = { s.zone z with
      manual := some r, lastBuilt := builtFrame s z (manualContent r), nextTag := (s.zone z).nextTag + 1
      clampedLast := (builtFrame s z (manualContent r)).marks.any } ∧
    Placed z (builtFrame s z (manualContent r)) (applyZoneSet r ((List.finRange 8).filter builds) s) := by
  have inside : z ∈ (List.finRange 8).filter builds := List.mem_filter.2 ⟨List.mem_finRange z, h⟩
  have run := zone_buildRun (fun _ => manualContent r) (manualsSet r ((List.finRange 8).filter builds) s)
    ((List.nodup_finRange 8).filter builds) inside
  rwa [← applyZoneSet_run, builtZone, builtFrame_manualsSet, zone_manualsSet, if_pos inside] at run

/-- R136, R138: the frames of the zones are placed, and then the oldest frame is handed over where that is due. -/
theorem applyZoneSet_places {u : State} (hu : SameQueue u s) (sound : QueueSound u.zones) (h : ∃ z, builds z = true) :
    SameQueue (openExchange ((openExchange u).setQueue
      (placedEntries builds (fun z => builtEntry s z (manualContent r)) (openExchange u).zones.queue)))
      (applyZoneSet r ((List.finRange 8).filter builds) s) := by
  obtain ⟨z, hz⟩ := h
  have nonempty : (List.finRange 8).filter builds ≠ [] := List.ne_nil_of_mem (List.mem_filter.2 ⟨List.mem_finRange z, hz⟩)
  let base := manualsSet r ((List.finRange 8).filter builds) s
  have same : SameQueue (openExchange u) (openExchange base) := (hu.trans (manualsSet_keeps r _ s).1).handOver
  have entries (z : Fin 8) : builtEntry (openExchange base) z (manualContent r) = builtEntry s z (manualContent r) := by
    obtain ⟨sequencer, envelope, period⟩ := openExchange_keeps base
    rw [builtEntry_congr ⟨zone_openExchange base z, sequencer, envelope, period⟩, builtEntry_manualsSet]
  have run := buildRun_places (builds := builds) (c := fun _ => manualContent r) same
    ((calm_openExchange u).queue sound) (later_openExchange u _)
  rwa [buildRun_openExchange _ _ nonempty, openExchange_buildRun _ _ nonempty, ← applyZoneSet_run,
    placedEntries_congr fun z _ => entries z] at run

/-- R138: an exchange in flight is left alone. -/
theorem applyZoneSet_inFlight (h : s.zones.exchange ≠ none) :
    (applyZoneSet r ((List.finRange 8).filter builds) s).zones.exchange = s.zones.exchange ∧
    (applyZoneSet r ((List.finRange 8).filter builds) s).drive = s.drive := by
  have run := buildRun_settled (builds := builds) (c := fun _ => manualContent r)
    (manualsSet_keeps r ((List.finRange 8).filter builds) s).1 (.inl h)
  rw [← applyZoneSet_run] at run
  exact ⟨run.exchange, run.drive⟩

theorem applyZoneSet_nobody (h : ∀ z, builds z ≠ true) : applyZoneSet r ((List.finRange 8).filter builds) s = s := by
  rw [List.filter_eq_nil_iff.2 fun z _ => h z]
  rfl

end

end Sys2Proof.ZonesAndDrive
end

section
/-! CERTIFICATE. O52: ZONE_SET. -/

namespace Sys2Proof.ZonesAndDrive

open Sys2Proof.Machine
open Sys2Proof.Safety
open Sys2Proof.Laws
open Sys2Proof.DryingSchedule

/-- Settles O52: the checks in their order, then the run of builds of the zones named that are in MANUAL (`applyZoneSet_run`),
whose entries, notices and places have a lemma each. -/
theorem zoneSet : Obligations.ZoneSet := by
  refine ⟨rfl, fun f rest s target front cls => ?_⟩
  intro p flag dry wet fits takes
  have window : f.cls.isWindow = true := by rw [cls]; rfl
  have body : windowBody f (Taken s rest) = zoneSetBody target f.kind p (Taken s rest) := by
    simp only [windowBody, cls, p]
  have refused {why : RefusalReason} (h : zoneSetBody target f.kind p (Taken s rest) = .error why) :
      exec .zoneSet s = .next (Refused s f rest (BitVec.ofNat 8 why.code)) :=
    congrArg Host.Outcome.next (serveFront_refused front window (body.trans h))
  have refusal {z : Fin 8} (one : target = .one z) :
      zoneSetRefusal (Taken s rest) target = zoneRefusal (s.zone z).mode := by rw [one]; rfl
  refine ⟨fun hk => refused (zoneSetBody_badKind hk), fun hk hp => refused (zoneSetBody_badLength hk hp),
    fun hk hp out => refused (zoneSetBody_range hk hp out),
    fun z hk hp fit one mode => refused (why := .zoneAuto) (zoneSetBody_refuses hk hp fit (by rw [refusal one, mode]; rfl)),
    fun z hk hp fit one mode => refused (why := .zoneOff) (zoneSetBody_refuses hk hp fit (by rw [refusal one, mode]; rfl)),
    fun hk hp fit manual => ?accepted⟩
  let builds : Fin 8 → Bool := fun z => decide (takes z)
  have takes_iff (z : Fin 8) : builds z = true ↔ takes z := decide_eq_true_iff
  have zones : zoneSetZones s target = (List.finRange 8).filter builds := zoneSetZones_eq manual takes_iff
  obtain ⟨stage, code, accepted⟩ := zoneSetBody_takes (s := Taken s rest) hk hp fit manual takes_iff
  obtain ⟨r, record⟩ : ∃ r, r = manualOf p stage := ⟨_, rfl⟩
  obtain ⟨t, told⟩ : ∃ t, t = applyZoneSet r ((List.finRange 8).filter builds) (Taken s rest) := ⟨_, rfl⟩
  rw [← record, acceptZoneSet, ← told] at accepted
  rw [manualOf_eq] at record
  have handler : t.handler = (Taken s rest).handler := by rw [told, (calm_applyZoneSet r _ _).handler]
  refine ⟨r, _, _, t, by rw [record], by rw [record], by rw [record]; exact code, by rw [record],
    congrArg Host.Outcome.next (serveFront_ok front window (body.trans accepted) handler), fun z one => ?one,
    fun all => ?all, ?_⟩
  case one => rw [← zones, one]; rfl
  case all => rw [← zones, all, List.countP_eq_length_filter]; rfl
  intro frame
  have frames (z : Fin 8) : builtFrame (Taken s rest) z (manualContent r) = frame z := by
    rw [builtFrame, clampContent_eq]
    rfl
  have taker {z : Fin 8} (hz : takes z) : t.zone z = { s.zone z with
        manual := some r, lastBuilt := frame z, nextTag := (s.zone z).nextTag + 1, clampedLast := (frame z).marks.any } ∧
      Placed z (frame z) t := by
    rw [told, ← frames]
    exact zone_applyZoneSet r ((takes_iff z).2 hz)
  refine ⟨?clamped, ?_⟩
  case clamped =>
    simp only [List.any_eq_true, List.mem_filter, List.mem_finRange, true_and, takes_iff]
    refine exists_congr fun z => and_congr_right fun hz => ?_
    rw [(taker hz).1]
  intro entry u placed
  refine ⟨?notices, fun nobody => ?nobody, fun sound some => ?places, fun x hx => ?inFlight, fun z hz => ?other,
    fun z hz => ?taken, ?only, ?envelope, ?period⟩
  case notices =>
    rw [told, notices_applyZoneSet]
    simp only [clampDue, clampNoticeOf, frames, ← Bool.and_assoc]
    rfl
  case nobody =>
    rw [told, applyZoneSet_nobody r fun z => mt (takes_iff z).1 (nobody z)]
    exact ⟨rfl, rfl⟩
  case places =>
    have entries (z : Fin 8) (hz : builds z = true) : builtEntry (Taken s rest) z (manualContent r) = entry z := by
      obtain ⟨-, manual⟩ := (takes_iff z).1 hz
      have mode : ((Taken s rest).zone z).mode = .manual := manual
      rw [builtEntry, frames, mode]
    have run := applyZoneSet_places r (⟨rfl, rfl, rfl⟩ : SameQueue s (Taken s rest)) sound
      (some.imp fun z => (takes_iff z).2)
    rw [← told, placedEntries_congr entries, placedEntries] at run
    simp only [takes_iff] at run
    obtain ⟨queue, exchange, drive⟩ := run
    exact ⟨queue, exchange, drive⟩
  case inFlight =>
    obtain ⟨exchange, drive⟩ := applyZoneSet_inFlight (builds := builds) (s := Taken s rest) r
      (by show s.zones.exchange ≠ none; rw [hx]; exact Option.some_ne_none x)
    rw [told, exchange, drive]
    exact ⟨hx, rfl⟩
  case other =>
    rw [told, zone_applyZoneSet_other r (mt (takes_iff z).1 hz)]
    rfl
  case taken =>
    obtain ⟨zone, stands⟩ := taker hz
    rw [zone]
    exact ⟨rfl, stands⟩
  case only =>
    have only := zonesOnly_eq (zonesOnly_applyZoneSet r (Taken s rest) ((List.finRange 8).filter builds))
    rwa [← told] at only
  case envelope => rw [told, (applyZoneSet_keeps r builds _).1]; rfl
  case period => rw [told, (applyZoneSet_keeps r builds _).2]; rfl

end Sys2Proof.ZonesAndDrive
end

section
/-! SUPPORT. What a step can do, said once for every command, and the notices and fault records through each of these
shapes (R145, R151). -/

namespace Sys2Proof.FaultsAndNotices

open Sys2Proof.Machine
open Sys2Proof.Safety
open Sys2Proof.Laws

/-! ### The shapes of a step -/

/-- What a command can make of a state: a power-up, a change within the plant, a minute tick, a reply moved at the Kiln
unit, a character of the Kiln Line, its break followed by the admission of a frame completed before it (R163), or the
front frame taken and answered. -/
inductive StepShape (s : State) : State → Prop where
  | powerUp (straps : Straps) (levels : PairLevels) : StepShape s (powerUp straps levels s)
  | plant {t : State} (h : Outer s t) : StepShape s t
  | minute : StepShape s (minuteTick s)
  | kilnUnit (k : KilnUnit) (r : Option Reply) :
      StepShape s { s with kiln := k, handler := { s.handler with replyPlace := r } }
  | kilnCharacter (c : RxChar) : StepShape s (receiveCharacter .kiln c s)
  | kilnBreak (c : CompletedFrame) : StepShape s (admitAfterBreak c (receiveCharacter .kiln breakChar s))
  | served {accepts : KilnFrame → Bool} {body : KilnFrame → State → Answer}
      (kept : ∀ f u x, body f u = .ok x → Kept u x.state) : StepShape s (serveFront accepts body s)

theorem StepShape.idle (s : State) : StepShape s s := .plant (Outer.refl s)

theorem stepShape_receiveCharacter (l : Line) (c : RxChar) (s : State) : StepShape s (receiveCharacter l c s) := by
  cases l with
  | field => exact .plant (whole_receiveCharacter .field c s).toOuter
  | drive => exact .plant (whole_receiveCharacter .drive c s).toOuter
  | kiln => exact .kilnCharacter c

theorem stepShape_receiveBreak (l : BreakLine) (s : State) : StepShape s (receiveBreak l s) := by
  cases l with
  | pair p =>
    rw [receiveBreak_pair]
    exact stepShape_receiveCharacter (lineOf p) breakChar s
  | kiln order =>
    rcases receiveBreak_kiln order s with plain | ⟨c, -, -, -, first⟩
    · rw [plain]
      exact .kilnCharacter breakChar
    · rw [first]
      exact .kilnBreak c

theorem stepShape_gapExpired (l : Line) (s : State) : StepShape s (gapExpired l s) := by
  cases l with
  | field => exact .plant (whole_gapExpired .field s).toOuter
  | drive => exact .plant (whole_gapExpired .drive s).toOuter
  | kiln =>
    unfold gapExpired
    split
    · exact .idle s
    · exact .kilnUnit _ s.handler.replyPlace

theorem stepShape_startTransmit (l : PairLine) (s : State) : StepShape s (startTransmit l (beforeTransmit l s)) := by
  refine .plant (Outer.trans ?_ (whole_startTransmit l _).toOuter)
  cases l with
  | field => exact Outer.refl s
  | drive => exact (calm_openExchange s).toOuter

theorem stepShape_handOverReply (s : State) : StepShape s (handOverReply s) := by
  unfold handOverReply
  split
  · exact .kilnUnit _ none
  · exact .idle s

theorem exec_stepShape (c : Instr) (s : State) : ∃ t, exec c s = .next t ∧ StepShape s t := by
  have request {k : Byte} {body : List Byte → State → Answer} (kept : BodyKept body) :
      ∃ t, Host.Outcome.next (serveRequest k body s) = (.next t : Host.Outcome State Machine.Fault Refusal) ∧
        StepShape s t := ⟨_, rfl, .served fun f u x => kept f.payload u x⟩
  cases c with
  | powerUp straps levels => exact ⟨_, rfl, .powerUp straps levels⟩
  | characterReceived l w =>
    show ∃ t, execCharacterReceived l w s = .next t ∧ _
    unfold execCharacterReceived
    split
    · exact ⟨_, rfl, .idle s⟩
    · exact ⟨_, rfl, stepShape_receiveCharacter l _ s⟩
  | breakCharacter l => exact ⟨_, rfl, stepShape_receiveBreak l s⟩
  | spacingSpellStart l =>
    show ∃ t, execSpacingSpellStart l s = .next t ∧ _
    unfold execSpacingSpellStart
    split
    · exact ⟨_, rfl, .idle s⟩
    · exact ⟨_, rfl, .plant (calm_setUnit l _ s).toOuter⟩
  | spacingSpellEnd l => exact ⟨_, rfl, .plant (calm_setUnit l _ s).toOuter⟩
  | gapLimitExpiry l => exact ⟨_, rfl, stepShape_gapExpired l s⟩
  | stuckLimitExpiry l order => exact ⟨_, rfl, .plant (plant_stuckExpired l order s).toOuter⟩
  | transmitStart l => exact ⟨_, rfl, stepShape_startTransmit l s⟩
  | transmitEnd l => exact ⟨_, rfl, .plant (calm_endTransmit l s).toOuter⟩
  | replyTransmitEnd => exact ⟨_, rfl, .kilnUnit _ s.handler.replyPlace⟩
  | replyHandover => exact ⟨_, rfl, stepShape_handOverReply s⟩
  | kilnLineMarkingReturn => exact ⟨_, rfl, .kilnUnit _ s.handler.replyPlace⟩
  | cycleTimerExpiry =>
    show ∃ t, execCycleTimerExpiry s = .next t ∧ _
    unfold execCycleTimerExpiry
    split
    · exact ⟨_, rfl, .idle s⟩
    · exact ⟨_, rfl, .plant (whole_cycleTimerExpired s).toOuter⟩
  | scanAnswerTimeout => exact ⟨_, rfl, .plant (whole_failWaiting .noAnswer s).toOuter⟩
  | drivePeriodExpiry => exact ⟨_, rfl, .plant (calm_drivePeriod s).toOuter⟩
  | driveAnswerTimeout => exact ⟨_, rfl, .plant (calm_noAnswer s).toOuter⟩
  | minuteTick => exact ⟨_, rfl, .minute⟩
  | stepLimit =>
    show ∃ t, execStepLimit s = .next t ∧ _
    unfold execStepLimit
    split
    · exact ⟨_, rfl, .minute⟩
    · exact ⟨_, rfl, .idle s⟩
  | fanReversal =>
    show ∃ t, execFanReversal s = .next t ∧ _
    unfold execFanReversal
    split
    · exact ⟨_, rfl, .minute⟩
    · exact ⟨_, rfl, .idle s⟩
  | zoneSet => exact ⟨_, rfl, .served kept_window⟩
  | unknownRequest => exact ⟨_, rfl, .served (fun _ _ _ h => nomatch h)⟩
  | identify => exact request kept_identify
  | readLineStatus => exact request kept_readLineStatus
  | setConfig => exact request kept_setConfig
  | readConfig => exact request kept_readConfig
  | setAddressSlot => exact request kept_setAddressSlot
  | lineRestart => exact request kept_lineRestart
  | loadCurve => exact request kept_loadCurve
  | readCurve => exact request kept_readCurve
  | mapProbe => exact request kept_mapProbe
  | unmapProbes => exact request kept_unmapProbes
  | excludeProbes => exact request kept_excludeProbes
  | includeProbes => exact request kept_includeProbes
  | readProbe => exact request kept_readProbe
  | readNode => exact request kept_readNode
  | fieldStart => exact request kept_fieldStart
  | fieldHalt => exact request kept_fieldHalt
  | readEstimate => exact request kept_readEstimate
  | readRanking => exact request kept_readRanking
  | loadStep => exact request kept_loadStep
  | readStep => exact request kept_readStep
  | setStepCount => exact request kept_setStepCount
  | start => exact request kept_start
  | resume => exact request kept_resume
  | hold => exact request kept_hold
  | release => exact request kept_release
  | skip => exact request kept_skip
  | abort => exact request kept_abort
  | chargeReset => exact request kept_chargeReset
  | readSchedule => exact request kept_readSchedule
  | readHistory => exact request kept_readHistory
  | setEnvelope => exact request kept_setEnvelope
  | readEnvelope => exact request kept_readEnvelope
  | setZoneMode => exact request kept_setZoneMode
  | readZone => exact request kept_readZone
  | readFault => exact request kept_readFault
  | clearFaults => exact request kept_clearFaults
  | collectNotices => exact request kept_collectNotices

/-- A step has one of the shapes, the command at the front of the queue taken. -/
theorem step_stepShape {s t : State} (h : step s = .next t) : StepShape { s with pending := s.pending.tail } t := by
  unfold step at h
  split at h
  · next none_pending =>
    cases h
    rw [none_pending, List.tail_nil, ← none_pending]
    exact .idle s
  · next c rest pending =>
    obtain ⟨u, hu, shape⟩ := exec_stepShape c { s with pending := rest }
    obtain rfl : u = t := Host.Outcome.next.inj (hu.symm.trans h)
    rwa [pending]

/-! ### From a state to a state whose records stay sound -/

/-- What a step keeps of the notices and the fault records. -/
structure RecordsFollow (s t : State) : Prop where
  notices : NoticesSound s.notices → NoticesSound t.notices
  faults  : FaultsSound s.faults → FaultsSound t.faults

theorem RecordsFollow.trans {s t u : State} (h : RecordsFollow s t) (k : RecordsFollow t u) : RecordsFollow s u where
  notices := k.notices ∘ h.notices
  faults := k.faults ∘ h.faults

/-- A state with the very same notices and fault records; the LOST marker may differ. -/
theorem RecordsFollow.of_eq {s t : State} (notices : t.notices.items = s.notices.items := by rfl)
    (faults : t.faults = s.faults := by rfl) : RecordsFollow s t where
  notices := by unfold NoticesSound; rw [notices]; exact id
  faults := by rw [faults]; exact id

theorem recordsFollow_of_outer {s t : State} (h : Outer s t) : RecordsFollow s t := ⟨h.notices, h.faults⟩

theorem recordsFollow_of_kept {s t : State} (h : Kept s t) : RecordsFollow s t := ⟨h.notices, h.faults⟩

theorem recordsFollow_powerUp (straps : Straps) (levels : PairLevels) (s : State) :
    RecordsFollow s (powerUp straps levels s) where
  notices _ := ProbePolling.reset_notices
  faults _ := ProbePolling.reset_faults

theorem recordsFollow_minuteTick (s : State) : RecordsFollow s (minuteTick s) :=
  RecordsFollow.trans (t := uptimeTick s) .of_eq (recordsFollow_of_outer (minuteTick_sound s).1)

/-! ### The Kiln Line touches no record but the LOST marker -/

theorem recordsFollow_admitFrame (f : KilnFrame) (s : State) : RecordsFollow s (admitFrame f s) := by
  unfold admitFrame
  split <;> exact .of_eq

theorem recordsFollow_kilnDelivered (f : Frame) (noisy : Bool) (s : State) :
    RecordsFollow s (kilnDelivered f noisy s) := by
  cases hc : classify s.straps.addr s.handler.slot1 f.address with
  | none =>
    rw [LineFraming.kilnDelivered_unmatched hc]
    exact .of_eq
  | some cls =>
    rw [LineFraming.kilnDelivered_class hc]
    split
    · have noted : RecordsFollow s (noteCompleted (LineFraming.kilnFrameOf f noisy cls) s) := .of_eq
      exact noted.trans (recordsFollow_admitFrame _ _)
    · exact .of_eq

theorem recordsFollow_kilnEvent (e : AssemblerEvent) (s : State) : RecordsFollow s (applyEvent .kiln e s) := by
  cases e with
  | quiet => exact .of_eq
  | discarded r => exact .of_eq
  | delivered f noisy => exact recordsFollow_kilnDelivered f noisy s

/-- R163: a break may set LOST, and removes no notice. -/
theorem recordsFollow_breakReport (l : Line) (c : RxChar) (s : State) : RecordsFollow s (breakReport l c s) := by
  unfold breakReport
  split <;> exact .of_eq

theorem recordsFollow_kilnCharacter (c : RxChar) (s : State) : RecordsFollow s (receiveCharacter .kiln c s) := by
  unfold receiveCharacter
  split
  · have fed : RecordsFollow s (feedCharacter .kiln c (s.afterChar .kiln c)) :=
      RecordsFollow.trans .of_eq (recordsFollow_kilnEvent _ _)
    exact fed.trans (recordsFollow_breakReport _ _ _)
  · exact .of_eq

theorem recordsFollow_admitAfterBreak (c : CompletedFrame) (s : State) : RecordsFollow s (admitAfterBreak c s) :=
  RecordsFollow.trans .of_eq (recordsFollow_admitFrame _ _)

/-! ### The front frame taken and answered (R160) -/

theorem recordsFollow_placeReply (f : KilnFrame) (r : Reply) (s : State) : RecordsFollow s (placeReply f r s) := by
  unfold placeReply
  split <;> exact .of_eq

theorem recordsFollow_serveFront {accepts : KilnFrame → Bool} {body : KilnFrame → State → Answer}
    (kept : ∀ f u x, body f u = .ok x → Kept u x.state) (s : State) :
    RecordsFollow s (serveFront accepts body s) := by
  unfold serveFront
  split
  · exact .of_eq
  · next f rest _ =>
    split
    · have taken : RecordsFollow s (s.setHandler (s.handler.taken rest)) := .of_eq
      refine taken.trans ?_
      dsimp only
      generalize s.setHandler (s.handler.taken rest) = t
      cases hb : body f t with
      | ok x => exact (recordsFollow_of_kept (kept f t x hb)).trans (recordsFollow_placeReply _ _ _)
      | error why => exact recordsFollow_placeReply _ _ _
    · exact .of_eq

/-- Each shape of a step keeps the records. -/
theorem StepShape.recordsFollow {s t : State} (h : StepShape s t) : RecordsFollow s t := by
  cases h with
  | powerUp straps levels => exact recordsFollow_powerUp straps levels s
  | plant h => exact recordsFollow_of_outer h
  | minute => exact recordsFollow_minuteTick s
  | kilnUnit k r => exact .of_eq
  | kilnCharacter c => exact recordsFollow_kilnCharacter c s
  | kilnBreak c => exact (recordsFollow_kilnCharacter breakChar s).trans (recordsFollow_admitAfterBreak c _)
  | served kept => exact recordsFollow_serveFront kept s

end Sys2Proof.FaultsAndNotices
end

section
/-! CERTIFICATE. Every step keeps the notices within 32 and one record for a source and reason. -/

namespace Sys2Proof.FaultsAndNotices

open Sys2Proof.Machine
open Sys2Proof.Safety

/-- Settles O58, by the shapes of a step (`step_stepShape`). -/
theorem recordsKept : Obligations.RecordsKept := by
  intro s t h
  have follow : RecordsFollow { s with pending := s.pending.tail } t := (step_stepShape h).recordsFollow
  exact ⟨follow.notices, follow.faults⟩

end Sys2Proof.FaultsAndNotices
end

section
/-! SUPPORT. Notices and fault records raised: what the queue and the set do in each case (R146, R147, R151, R155). -/

namespace Sys2Proof.FaultsAndNotices

open Sys2Proof.Machine
open Sys2Proof.Safety
open Sys2Proof.Laws

/-! ### Notices (R151, R155) -/

theorem add_of_room {q : NoticeQueue} (h : q.items.length < 32) (x : Notice) :
    q.add x = { q with items := q.items ++ [x] } := if_pos h

theorem add_of_full {q : NoticeQueue} (h : 32 ≤ q.items.length) (x : Notice) : q.add x = { q with lost := true } :=
  if_neg (Nat.not_lt.2 h)

theorem attn_iff (s : State) :
    s.attn = true ↔ s.param .attentionEnable = 1 ∧ (s.notices.items ≠ [] ∨ s.notices.lost = true) := by
  simp [State.attn]

/-! ### Fault records (R146, R147) -/

section

variable {f : FaultSet} {source : FaultSource} {reason : FaultReason} {i : Fin 16}

/-- R145, R146: in a sound set the one present record of a source and reason is the one found. -/
theorem matching_of_present {r : FaultRecord} (sound : FaultsSound f) (hr : f.records[i] = some r)
    (hs : r.source = source) (hw : r.reason = reason) : f.matching source reason = some i := by
  cases hm : f.matching source reason with
  | none => exact absurd ⟨hs, hw⟩ (matching_none hm hr)
  | some j =>
    obtain ⟨a, ha, has, haw⟩ := matching_some hm
    exact congrArg some (sound j i a r ha hr (has.trans hs.symm) (haw.trans hw.symm))

theorem matching_of_absent
    (absent : ∀ (i : Fin 16) (r : FaultRecord), f.records[i] = some r →
      r.source ≠ source ∨ r.reason ≠ reason) : f.matching source reason = none := by
  cases hm : f.matching source reason with
  | none => rfl
  | some i =>
    obtain ⟨r, hr, hs, hw⟩ := matching_some hm
    exact (absent i r hr).elim (absurd hs) (absurd hw)

theorem lowestFree_of_first (free : f.records[i] = none) (below : ∀ j : Fin 16, j < i → f.records[j] ≠ none) :
    f.lowestFree = some i :=
  ProbePolling.find_finRange (Option.isNone_iff_eq_none.2 free)
    fun j hj => Bool.eq_false_iff.2 (mt Option.isNone_iff_eq_none.1 (below j hj))

theorem lowestFree_of_full (full : ∀ i : Fin 16, f.records[i] ≠ none) : f.lowestFree = none :=
  ProbePolling.find_finRange_none fun i => Bool.eq_false_iff.2 (mt Option.isNone_iff_eq_none.1 (full i))

end

section

variable {source : FaultSource} {reason : FaultReason} {s : State} {i : Fin 16} (detail : Option Int)

/-- R146: a fault whose record is found collapses into it. -/
theorem raiseFault_collapses {r : FaultRecord} (found : s.faults.matching source reason = some i)
    (hr : s.faults.records[i] = some r) :
    raiseFault source reason detail s = s.setFault i (some (r.repeated s.uptime detail)) := by
  simp only [raiseFault, found, hr, Option.map_some]

variable (new : s.faults.matching source reason = none)

include new

/-- R147: a new fault takes the lowest free record and raises a notice. -/
theorem raiseFault_records (free : s.faults.lowestFree = some i) : raiseFault source reason detail s =
    raiseNotice .faultRecorded i.val (some reason.code) (some source.number)
      (s.setFault i (some (newRecord source reason detail s.uptime))) := by
  simp only [raiseFault, new, recordFault, free]

theorem raiseFault_full (full : s.faults.lowestFree = none) :
    raiseFault source reason detail s = loseFault source reason s := by
  simp only [raiseFault, new, recordFault, full]

end

end Sys2Proof.FaultsAndNotices
end

section
/-! CERTIFICATE. A fault raised. -/

namespace Sys2Proof.FaultsAndNotices

open Sys2Proof.Machine
open Sys2Proof.Safety

/-- Settles O53: by whether a record matches, whether one is free, and whether the overflow flag is set. -/
theorem faultRaised : Obligations.FaultRaised := by
  intro source reason detail s set
  refine ⟨fun i r sound hr hs hw => raiseFault_collapses detail (matching_of_present sound hr hs hw) hr,
    fun absent => ?_⟩
  have new := matching_of_absent absent
  refine ⟨fun i free below => raiseFault_records detail new (lowestFree_of_first free below), fun full first => ?_,
    fun full lost => ?_⟩
  · rw [raiseFault_full detail new (lowestFree_of_full full)]
    exact if_neg (Bool.eq_false_iff.1 first)
  · rw [raiseFault_full detail new (lowestFree_of_full full)]
    exact if_pos lost

end Sys2Proof.FaultsAndNotices
end

section
/-! SUPPORT. READ_FAULT, CLEAR_FAULTS and COLLECT_NOTICES (R149, R150, R153): their checks, and the bytes of a fault
record and of a notice field by field. -/

namespace Sys2Proof.FaultsAndNotices

open Sys2Proof.Machine
open Sys2Proof.Safety
open Sys2Proof.Laws
open Sys2Proof.MoistureConversion

/-- A payload that is not one byte is empty or goes on behind its first byte. -/
theorem payload_of_length_ne_one {p : List Byte} (h : p.length ≠ 1) : p = [] ∨ ∃ a b r, p = a :: b :: r := by
  match p, h with
  | [], _ => exact .inl rfl
  | [_], h => exact absurd rfl h
  | a :: b :: r, _ => exact .inr ⟨a, b, r, rfl⟩

/-! ### READ_FAULT -/

theorem presentCount_eq (f : FaultSet) :
    f.presentCount = (List.finRange 16).countP fun i => f.records[i] != none :=
  congrArg (fun p => List.countP p _) (funext fun i => by cases f.records[i] <;> rfl)

theorem presentCount_le (f : FaultSet) : f.presentCount ≤ 16 := List.countP_le_length.trans List.length_finRange.le

/-- R149: a detail is signed, and all ones when absent. -/
theorem detailBytes_holds (x : Option Int) : ∃ a b, detailBytes x = [a, b] ∧ ∀ p k, byteAt p k = a →
    byteAt p (k + 1) = b →
    (x = none → byteAt p k = 0xFF ∧ byteAt p (k + 1) = 0xFF) ∧ ∀ y, x = some y → HoldsTemp p k (some y) := by
  cases x with
  | none => exact ⟨_, _, rfl, fun p k h1 h2 => ⟨fun _ => ⟨h1, h2⟩, nofun⟩⟩
  | some x =>
    obtain ⟨a, b, bytes, holds⟩ := i2_holds x
    refine ⟨a, b, bytes, fun p k h1 h2 => ⟨nofun, fun y hy => ?_⟩⟩
    cases hy
    exact holds p k h1 h2

/-- The fields of a fault record, of the number of present ones and of the overflow flag stand at their offsets. -/
structure FaultFields (d : List Byte) (i : Fin 16) (r : Option FaultRecord) (f : FaultSet) : Prop where
  length     : d.length = 16
  number     : byteAt d 0 = BitVec.ofNat 8 i.val
  free       : r = none → byteAt d 1 = 0
  present    : r ≠ none → byteAt d 1 = 1
  sourceKind : Holds1 d 2 (r.map (·.source.kindCode))
  source     : Holds1 d 3 (r.map (·.source.number))
  reason     : Holds1 d 4 (r.map (·.reason.code))
  firstSeen  : Holds3 d 5 (r.map (·.firstSeen))
  lastSeen   : Holds3 d 8 (r.map (·.lastSeen))
  repeats    : Holds1 d 11 (r.map (·.repeats))
  noDetail   : r.bind (·.detail) = none → byteAt d 12 = 0xFF ∧ byteAt d 13 = 0xFF
  detail     : ∀ x, r.bind (·.detail) = some x → HoldsTemp d 12 (some x)
  count      : (byteAt d 14).toNat = f.presentCount
  overflow   : byteAt d 15 = if f.overflow then 1 else 0

/-- R149: the data of a READ_FAULT reply. -/
def readFaultBytes (i : Fin 16) (f : FaultSet) : List Byte :=
  b1 i.val ++ faultBytes f.records[i] ++ b1 f.presentCount ++ flag1 f.overflow

theorem readFaultBytes_fields (i : Fin 16) (f : FaultSet) : FaultFields (readFaultBytes i f) i f.records[i] f := by
  unfold readFaultBytes
  generalize f.records[i] = r
  obtain ⟨_, sourceKind, hSourceKind⟩ := opt1_holds (r.map (·.source.kindCode))
  obtain ⟨_, source, hSource⟩ := opt1_holds (r.map (·.source.number))
  obtain ⟨_, reason, hReason⟩ := opt1_holds (r.map (·.reason.code))
  obtain ⟨_, _, _, firstSeen, hFirstSeen⟩ := opt3_holds (r.map (·.firstSeen))
  obtain ⟨_, _, _, lastSeen, hLastSeen⟩ := opt3_holds (r.map (·.lastSeen))
  obtain ⟨_, repeats, hRepeats⟩ := opt1_holds (r.map (·.repeats))
  obtain ⟨_, _, detail, hDetail⟩ := detailBytes_holds (r.bind (·.detail))
  unfold faultBytes
  rw [sourceKind, source, reason, firstSeen, lastSeen, repeats, detail]
  simp only [ZonesAndDrive.flag1_eq, b1, List.cons_append, List.nil_append]
  exact {
    length := rfl
    number := rfl
    free := fun h => by rw [h]; rfl
    present := fun h => if_pos (Option.isSome_iff_ne_none.2 h)
    sourceKind := hSourceKind _ _ rfl
    source := hSource _ _ rfl
    reason := hReason _ _ rfl
    firstSeen := hFirstSeen _ _ rfl rfl rfl
    lastSeen := hLastSeen _ _ rfl rfl rfl
    repeats := hRepeats _ _ rfl
    noDetail := (hDetail _ _ rfl rfl).1
    detail := (hDetail _ _ rfl rfl).2
    count := Nat.mod_eq_of_lt ((presentCount_le f).trans_lt (by decide))
    overflow := rfl }

theorem readFaultBody_badLength {p : List Byte} (h : p.length ≠ 1) (s : State) :
    readFaultBody p s = .error .badLength := by
  obtain rfl | ⟨a, b, r, rfl⟩ := payload_of_length_ne_one h <;> rfl

theorem readFaultBody_range {n : Byte} (h : 15 < n.toNat) (s : State) : readFaultBody [n] s = .error .range := by
  simp only [readFaultBody, ProbePolling.indexOf_eq_none.2 h]

theorem readFaultBody_reads {n : Byte} {i : Fin 16} (h : n.toNat = i.val) (s : State) :
    readFaultBody [n] s = done s (readFaultBytes i s.faults) := by
  simp only [readFaultBody, ProbePolling.indexOf_eq_some.2 h, readFaultBytes]

/-! ### CLEAR_FAULTS -/

theorem clearFaultsBody_badLength {p : List Byte} (h : p.length ≠ 1) (s : State) :
    clearFaultsBody p s = .error .badLength := by
  obtain rfl | ⟨a, b, r, rfl⟩ := payload_of_length_ne_one h <;> rfl

theorem clearFaultsBody_all (s : State) : clearFaultsBody [255] s =
    done (clearAllFaults s) [BitVec.ofNat 8 s.faults.presentCount, 0] := rfl

theorem ne_255_of_lt {n : Byte} (h : n.toNat < 255) : n ≠ 255 := by
  rintro rfl
  exact absurd h (by decide)

theorem clearFaultsBody_range {n : Byte} (h : 15 < n.toNat) (notAll : n.toNat < 255) (s : State) :
    clearFaultsBody [n] s = .error .range := by
  simp only [clearFaultsBody, if_neg (ne_255_of_lt notAll), ProbePolling.indexOf_eq_none.2 h]

theorem clearFaultsBody_one {n : Byte} {i : Fin 16} (h : n.toNat = i.val) (s : State) : clearFaultsBody [n] s =
    done (s.setFault i none)
      [if s.faults.records[i] = none then 0 else 1, if s.faults.overflow then 1 else 0] := by
  have one : n ≠ 255 := ne_255_of_lt (by have := i.isLt; omega)
  have data : flag1 s.faults.records[i].isSome ++ flag1 s.faults.overflow =
      [if s.faults.records[i] = none then 0 else 1, if s.faults.overflow then 1 else 0] := by
    cases s.faults.records[i] <;> cases s.faults.overflow <;> rfl
  simp only [clearFaultsBody, if_neg one, ProbePolling.indexOf_eq_some.2 h, data]

/-! ### COLLECT_NOTICES -/

theorem length_noticeBytes (x : Notice) : (noticeBytes x).length = 9 := by
  obtain ⟨_, _, value1, -⟩ := opt2_holds x.value1
  obtain ⟨_, _, value2, -⟩ := opt2_holds x.value2
  rw [noticeBytes, value1, value2]
  rfl

/-- The fields of a notice stand at their offsets. -/
structure NoticeFields (d : List Byte) (k : Nat) (x : Notice) : Prop where
  kind    : (byteAt d k).toNat = x.kind.code
  subject : Holds1 d (k + 1) (some x.subject)
  minute  : Holds3 d (k + 2) (some x.minute)
  value1  : Holds2 d (k + 5) x.value1
  value2  : Holds2 d (k + 7) x.value2

/-- A notice read wherever its nine bytes stand. -/
theorem noticeFields_of_bytes {d : List Byte} {k : Nat} {x : Notice}
    (read : ∀ j < 9, byteAt d (k + j) = byteAt (noticeBytes x) j) : NoticeFields d k x := by
  obtain ⟨_, subject, hSubject⟩ := b1_holds x.subject
  obtain ⟨_, _, _, minute, hMinute⟩ := b3_holds x.minute
  obtain ⟨_, _, value1, hValue1⟩ := opt2_holds x.value1
  obtain ⟨_, _, value2, hValue2⟩ := opt2_holds x.value2
  rw [noticeBytes, subject, minute, value1, value2] at read
  refine ⟨?_, hSubject _ _ (read 1 (by decide)),
    hMinute _ _ (read 2 (by decide)) (read 3 (by decide)) (read 4 (by decide)),
    hValue1 _ _ (read 5 (by decide)) (read 6 (by decide)), hValue2 _ _ (read 7 (by decide)) (read 8 (by decide))⟩
  rw [← Nat.add_zero k, read 0 (by decide)]
  show (BitVec.ofNat 8 x.kind.code).toNat = _
  cases x.kind <;> rfl

/-- The fields of a reply with `k` notices collected from the queue stand at their offsets. -/
structure CollectedFields (d : List Byte) (k : Nat) (q : NoticeQueue) : Prop where
  length  : d.length = 3 + 9 * k
  count   : Holds1 d 0 (some k)
  notices : ∀ (i : Nat) (x : Notice), i < k → q.items[i]? = some x → NoticeFields d (1 + 9 * i) x
  lost    : byteAt d (1 + 9 * k) = if q.lost then 1 else 0
  left    : Holds1 d (2 + 9 * k) (some (q.items.length - k))

theorem collectedBytes_fields {q : NoticeQueue} {k : Nat} (h : k ≤ q.items.length) :
    CollectedFields (collectedBytes q k) k q := by
  obtain ⟨_, count, hCount⟩ := b1_holds k
  obtain ⟨_, left, hLeft⟩ := b1_holds (q.items.length - k)
  have taken : (q.items.take k).length = k := List.length_take_of_le h
  have bytes : collectedBytes q k = b1 k ++ (q.items.take k).flatMap noticeBytes ++
      (flag1 q.lost ++ b1 (q.items.length - k)) := by
    simp only [collectedBytes, taken, List.length_drop, List.append_assoc]
  have width : (b1 k ++ (q.items.take k).flatMap noticeBytes).length = 1 + 9 * k := by
    rw [List.length_append, length_flatMap_of_width length_noticeBytes, taken]
    rfl
  have behind (j : Nat) : byteAt (collectedBytes q k) (1 + 9 * k + j) =
      byteAt (flag1 q.lost ++ b1 (q.items.length - k)) j := by
    rw [bytes, ← width, byteAt_append_right]
  rw [ZonesAndDrive.flag1_eq, left] at behind
  refine ⟨?length, ?count, fun i x hi hx => noticeFields_of_bytes fun j hj => ?notice, behind 0, ?left⟩
  case length =>
    rw [bytes, List.length_append, width, Nat.add_right_comm]
    rfl
  case count =>
    rw [bytes, count]
    exact hCount _ _ rfl
  case notice =>
    have entry : (q.items.take k)[i]? = some x := by rw [List.getElem?_take_of_lt hi, hx]
    rw [bytes, List.append_assoc, Nat.add_assoc]
    exact ChargeEstimate.byteAt_block length_noticeBytes entry hj (b1 k) _
  case left =>
    have last := hLeft _ _ (behind 1)
    rwa [Nat.add_right_comm] at last

/-- R153: a count beyond the queue collects the whole of it. -/
theorem collectedBytes_min (q : NoticeQueue) (n : Nat) :
    collectedBytes q n = collectedBytes q (min n q.items.length) := by
  rw [collectedBytes, List.take_eq_take_min, List.drop_eq_drop_min]
  rfl

theorem collected_min (q : NoticeQueue) (n : Nat) :
    q.collected n = { items := q.items.drop (min n q.items.length), lost := false } := by
  rw [NoticeQueue.collected, List.drop_eq_drop_min]

theorem collectNoticesBody_badLength {p : List Byte} (h : p.length ≠ 1) (s : State) :
    collectNoticesBody p s = .error .badLength := by
  obtain rfl | ⟨a, b, r, rfl⟩ := payload_of_length_ne_one h <;> rfl

theorem collectNoticesBody_range {n : Byte} (h : n.toNat = 0 ∨ 4 < n.toNat) (s : State) :
    collectNoticesBody [n] s = .error .range := if_neg (by omega)

theorem collectNoticesBody_collects {n : Byte} (least : 1 ≤ n.toNat) (most : n.toNat ≤ 4) (s : State) :
    collectNoticesBody [n] s =
      done { s with notices := { items := s.notices.items.drop (min n.toNat s.notices.items.length), lost := false } }
        (collectedBytes s.notices (min n.toNat s.notices.items.length)) := by
  rw [← collected_min, ← collectedBytes_min]
  exact if_pos ⟨least, most⟩

end Sys2Proof.FaultsAndNotices
end

section
/-! CERTIFICATE. READ_FAULT, CLEAR_FAULTS and COLLECT_NOTICES. -/

namespace Sys2Proof.FaultsAndNotices

open Sys2Proof.Machine
open Sys2Proof.Safety
open Sys2Proof.Laws

/-- Settles O54: the checks, the bytes of `readFaultBytes_fields`, and the records freed. -/
theorem faultRequests : Obligations.FaultRequests := by
  refine ⟨fun p n z => rfl, rfl, fun f rest s => ?_⟩
  intro present
  have counted : s.faults.presentCount = present := presentCount_eq s.faults
  refine ⟨fun asked => ⟨fun bad => ?readLength, fun n hp => ⟨fun out => ?readRange, fun i hi => ?read⟩⟩,
    fun asked => ⟨fun bad => ?clearLength, fun n hp => ⟨fun out notAll => ?clearRange, fun all => ?clearAll,
      fun i hi => ?clear⟩⟩⟩
  case readLength => exact congrArg _ (serveRequest_refused asked (readFaultBody_badLength bad _))
  case readRange => exact congrArg _ (serveRequest_refused asked (by rw [hp]; exact readFaultBody_range out _))
  case read =>
    have fields := readFaultBytes_fields i s.faults
    exact ⟨readFaultBytes i s.faults,
      congrArg _ (serveRequest_read asked (by rw [hp]; exact readFaultBody_reads hi _)), fields.length,
      fields.number.trans (ProbePolling.ofNat_eq_of_toNat hi), fields.free, fields.present, fields.sourceKind,
      fields.source, fields.reason, fields.firstSeen, fields.lastSeen, fields.repeats, fields.noDetail, fields.detail,
      fields.count.trans counted, fields.overflow⟩
  case clearLength => exact congrArg _ (serveRequest_refused asked (clearFaultsBody_badLength bad _))
  case clearRange =>
    exact congrArg _ (serveRequest_refused asked (by rw [hp]; exact clearFaultsBody_range out notAll _))
  case clearAll =>
    have freed := clearFaultsBody_all (Taken s rest)
    rw [← all, ← hp] at freed
    rw [← counted]
    exact congrArg _ ((serveRequest_done asked freed rfl).trans rfl)
  case clear =>
    have freed := clearFaultsBody_one hi (Taken s rest)
    rw [← hp] at freed
    exact congrArg _ ((serveRequest_done asked freed rfl).trans rfl)

/-- Settles O55: the queue by its length, the bytes of `collectedBytes_fields`, and the ATTN output. -/
theorem notices : Obligations.Notices := by
  refine ⟨rfl, fun kind n a b s => ⟨fun room => ?joins, fun full => ?dropped⟩,
    fun f rest s asked => ⟨fun bad => ?length, fun n hp => ⟨fun out => ?range, fun least most => ?collected⟩⟩,
    attn_iff⟩
  case joins => exact congrArg (fun q => { s with notices := q }) (add_of_room room _)
  case dropped => exact congrArg (fun q => { s with notices := q }) (add_of_full full _)
  case length => exact congrArg _ (serveRequest_refused asked (collectNoticesBody_badLength bad _))
  case range => exact congrArg _ (serveRequest_refused asked (by rw [hp]; exact collectNoticesBody_range out _))
  case collected =>
    intro q k
    have few : k < 256 := (Nat.min_le_left _ _).trans_lt (most.trans_lt (by decide))
    have fields : CollectedFields (collectedBytes s.notices k) k s.notices :=
      collectedBytes_fields (Nat.min_le_right _ _)
    have collects := collectNoticesBody_collects least most (Taken s rest)
    rw [← hp] at collects
    refine ⟨collectedBytes s.notices k, congrArg _ ((serveRequest_done asked collects rfl).trans rfl),
      fields.length, fields.count.trans (Nat.mod_eq_of_lt few), fun i x hi hx => ?_, fields.lost, fields.left⟩
    obtain ⟨kind, subject, minute, value1, value2⟩ := fields.notices i x hi hx
    rw [Nat.add_right_comm] at subject minute value1 value2
    exact ⟨kind, subject, minute, value1, value2⟩

end Sys2Proof.FaultsAndNotices
end

section
/-! SUPPORT. The intake queue and KL_RDY through each shape of a step (R158, R159, R163). -/

namespace Sys2Proof.KilnLineManagement

open Sys2Proof.Machine
open Sys2Proof.Safety
open Sys2Proof.Laws
open Sys2Proof.FaultsAndNotices

/-! ### What the Handler's own operations do to the queue and KL_RDY -/

/-- The limits speak of the queue and of KL_RDY alone. -/
theorem intakeSound_of_same {s t : State} (same : SameIntake s t) (sound : IntakeSound s.handler) :
    IntakeSound t.handler := by
  obtain ⟨intake, ready⟩ := same
  rw [IntakeSound, intake, ready]
  exact sound

theorem sameIntake_trans {s t u : State} (h : SameIntake s t) (k : SameIntake t u) : SameIntake s u :=
  ⟨k.1.trans h.1, k.2.trans h.2⟩

/-- R158, R163: an empty queue with KL_RDY asserted, as power-up and a break leave it. -/
theorem intakeSound_empty {h : Handler} (intake : h.intake = []) (ready : h.klRdy = true) : IntakeSound h := by
  rw [IntakeSound, intake, ready]
  exact ⟨Nat.zero_le _, fun _ => Nat.zero_le _, nofun⟩

/-- R159: KL_RDY, asserted below 6 frames, is deasserted by the frame that makes them 6. -/
theorem intakeSound_admitted {h : Handler} (sound : IntakeSound h) (room : h.intake.length < 8) (f : KilnFrame) :
    IntakeSound (h.admitted f) := by
  obtain ⟨-, asserted, deasserted⟩ := sound
  simp only [IntakeSound, Handler.admitted, Config.intakeHigh, List.length_append, List.length_singleton]
  cases ready : h.klRdy with
  | true =>
    have few : h.intake.length ≤ 5 := asserted ready
    simp only [Bool.true_and, bne_iff_ne, bne_eq_false_iff_eq]
    omega
  | false =>
    have many : 3 ≤ h.intake.length := deasserted ready
    simp only [Bool.false_and]
    exact ⟨by omega, nofun, fun _ => by omega⟩

/-- R159: KL_RDY, deasserted above 2 frames, is asserted when taking a frame leaves 2. -/
theorem intakeSound_taken {h : Handler} {f : KilnFrame} {rest : List KilnFrame} (sound : IntakeSound h)
    (front : h.intake = f :: rest) : IntakeSound (h.taken rest) := by
  obtain ⟨capacity, asserted, deasserted⟩ := sound
  rw [front, List.length_cons] at capacity asserted deasserted
  simp only [IntakeSound, Handler.taken, Config.intakeLow]
  cases ready : h.klRdy with
  | true =>
    have few : rest.length + 1 ≤ 5 := asserted ready
    simp only [Bool.true_or]
    exact ⟨by omega, fun _ => by omega, nofun⟩
  | false =>
    have many : 3 ≤ rest.length + 1 := deasserted ready
    simp only [Bool.false_or, beq_iff_eq, beq_eq_false_iff_ne]
    omega

/-! ### A character and a break of the Kiln Line -/

theorem intakeSound_admitFrame (f : KilnFrame) {s : State} (sound : IntakeSound s.handler) :
    IntakeSound (admitFrame f s).handler := by
  unfold admitFrame
  split
  · next room => exact intakeSound_admitted sound room f
  · exact sound

theorem intakeSound_kilnDelivered (f : Frame) (noisy : Bool) {s : State} (sound : IntakeSound s.handler) :
    IntakeSound (kilnDelivered f noisy s).handler := by
  cases hc : classify s.straps.addr s.handler.slot1 f.address with
  | none => rwa [LineFraming.kilnDelivered_unmatched hc]
  | some cls =>
    rw [LineFraming.kilnDelivered_class hc]
    split
    · exact intakeSound_admitFrame _ (s := noteCompleted (LineFraming.kilnFrameOf f noisy cls) s) sound
    · exact sound

theorem intakeSound_kilnEvent (e : AssemblerEvent) {s : State} (sound : IntakeSound s.handler) :
    IntakeSound (applyEvent .kiln e s).handler := by
  cases e with
  | quiet => exact sound
  | discarded r => exact sound
  | delivered f noisy => exact intakeSound_kilnDelivered f noisy sound

theorem intakeSound_breakReport (c : RxChar) {s : State} (sound : IntakeSound s.handler) :
    IntakeSound (breakReport .kiln c s).handler := by
  unfold breakReport
  split
  · exact intakeSound_empty rfl rfl
  · exact sound

theorem intakeSound_kilnCharacter (c : RxChar) {s : State} (sound : IntakeSound s.handler) :
    IntakeSound (receiveCharacter .kiln c s).handler := by
  unfold receiveCharacter
  split
  · exact intakeSound_breakReport c (intakeSound_kilnEvent _ sound)
  · exact sound

theorem intakeSound_admitAfterBreak (c : CompletedFrame) {s : State} (sound : IntakeSound s.handler) :
    IntakeSound (admitAfterBreak c s).handler := intakeSound_admitFrame c.frame sound

/-! ### The front frame taken and answered (R160) -/

theorem atFront_of_front {s : State} {f : KilnFrame} {rest : List KilnFrame} (h : s.front = some (f, rest)) :
    AtFront s f rest := by
  unfold State.front at h
  split at h
  · next empty intake =>
    cases h
    exact ⟨empty, intake⟩
  · cases h

theorem sameIntake_placeReply (f : KilnFrame) (r : Reply) (s : State) : SameIntake s (placeReply f r s) := by
  unfold placeReply
  split <;> exact ⟨rfl, rfl⟩

/-- An answer leaves the queue to its request's body, and a refusal leaves it as it is. -/
theorem sameIntake_answerFrame {f : KilnFrame} {a : Answer} {s : State} (kept : ∀ x, a = .ok x → SameIntake s x.state) :
    SameIntake s (answerFrame f a s) := by
  cases a with
  | ok x => exact sameIntake_trans (kept x rfl) (sameIntake_placeReply _ _ _)
  | error why => exact sameIntake_placeReply _ _ _

theorem intakeSound_serveFront {accepts : KilnFrame → Bool} {body : KilnFrame → State → Answer} {s : State}
    (kept : ∀ f u x, body f u = .ok x → Kept u x.state) (sound : IntakeSound s.handler) :
    IntakeSound (serveFront accepts body s).handler := by
  unfold serveFront
  split
  · exact sound
  · next f rest front =>
    split
    · have taken : IntakeSound (s.setHandler (s.handler.taken rest)).handler :=
        intakeSound_taken sound (atFront_of_front front).2
      exact intakeSound_of_same (sameIntake_answerFrame fun x hx => (kept f _ x hx).same) taken
    · exact sound

/-! ### Every shape of a step -/

theorem intakeSound_of_stepShape {s t : State} (shape : StepShape s t) (sound : IntakeSound s.handler) :
    IntakeSound t.handler := by
  cases shape with
  | powerUp straps levels => exact intakeSound_empty rfl rfl
  | plant outer => exact intakeSound_of_same outer.same sound
  | minute => exact intakeSound_of_same (s := uptimeTick s) (minuteTick_sound s).1.same sound
  | kilnUnit k r => exact sound
  | kilnCharacter c => exact intakeSound_kilnCharacter c sound
  | kilnBreak c => exact intakeSound_admitAfterBreak c (intakeSound_kilnCharacter breakChar sound)
  | served kept => exact intakeSound_serveFront kept sound

end Sys2Proof.KilnLineManagement
end

section
/-! CERTIFICATE. Every step keeps the intake queue within 8 frames and KL_RDY within its hysteresis. -/

namespace Sys2Proof.KilnLineManagement

open Sys2Proof.Safety
open Sys2Proof.FaultsAndNotices

/-- Settles O57, by the shapes of a step (`step_stepShape`). -/
theorem intakeKept : Obligations.IntakeKept := fun _ _ sound stepped =>
  intakeSound_of_stepShape (step_stepShape stepped) sound

end Sys2Proof.KilnLineManagement
end

section
/-! SUPPORT. SET_CONFIG and READ_CONFIG: what each body makes of a payload (R164, R165). -/

namespace Sys2Proof.KilnLineManagement

open Sys2Proof.Machine
open Sys2Proof.Safety
open Sys2Proof.Laws

/-! ### A parameter by its id, and its limits (section 9.5) -/

theorem paramIndexOfId_none {id : Byte} (h : id.toNat = 0 ∨ 23 < id.toNat) : paramIndexOfId id = none :=
  dif_neg (by omega)

theorem paramIndexOfId_some {id : Byte} {i : Fin 23} (h : id.toNat = i.val + 1) : paramIndexOfId id = some i := by
  have within : 1 ≤ id.toNat ∧ id.toNat ≤ 23 := by omega
  rw [paramIndexOfId, dif_pos within]
  exact congrArg some (Fin.ext (by simp [h]))

/-- R164: a value below the lower limit becomes it, one above the upper limit becomes that, any other stays. -/
theorem paramTaken_eq (i : Fin 23) (v : Nat) :
    paramTaken i v = if v < paramLows[i] then paramLows[i] else if paramHighs[i] < v then paramHighs[i] else v := by
  have ordered : paramLows[i] ≤ paramHighs[i] := paramLows_le i
  unfold paramTaken
  split_ifs <;> omega

/-- Section 11.6: the two bytes of a field, most significant first. -/
theorem b2_eq (n : Nat) : b2 n = [BitVec.ofNat 8 (n / 256), BitVec.ofNat 8 n] := by
  have high : highByte (BitVec.ofNat 16 n) = BitVec.ofNat 8 (n / 256) := by
    apply BitVec.eq_of_toNat_eq
    simp only [highByte, BitVec.extractLsb'_toNat, BitVec.toNat_ofNat, Nat.shiftRight_eq_div_pow]
    omega
  have low : lowByte (BitVec.ofNat 16 n) = BitVec.ofNat 8 n := by
    apply BitVec.eq_of_toNat_eq
    simp only [lowByte, BitVec.extractLsb'_toNat, BitVec.toNat_ofNat, Nat.shiftRight_zero]
    omega
  rw [b2, w2, high, low]

/-! ### SET_CONFIG -/

theorem setConfigBody_badLength {p : List Byte} (h : p.length ≠ 3) (s : State) :
    setConfigBody p s = .error .badLength := by
  match p, h with
  | [], _ | [_], _ | [_, _], _ => rfl
  | [_, _, _], h => exact absurd rfl h
  | _ :: _ :: _ :: _ :: _, _ => rfl

theorem setConfigBody_range {id : Byte} (h : id.toNat = 0 ∨ 23 < id.toNat) (hi lo : Byte) (s : State) :
    setConfigBody [id, hi, lo] s = .error .range := by
  simp only [setConfigBody, paramIndexOfId_none h]

theorem setConfigBody_sets {id : Byte} {i : Fin 23} (h : id.toNat = i.val + 1) (hi lo : Byte) (s : State) :
    setConfigBody [id, hi, lo] s =
      .ok { state := { s with params := s.params.set i (paramTaken i (u16 hi lo)) }
            clamped := paramTaken i (u16 hi lo) != u16 hi lo
            data := id :: b2 (paramTaken i (u16 hi lo)) } := by
  simp only [setConfigBody, paramIndexOfId_some h]

/-! ### READ_CONFIG -/

/-- R165: the data of a READ_CONFIG reply. -/
def configBytes (id : Byte) (i : Fin 23) (value : Nat) : List Byte :=
  id :: b2 value ++ b2 paramLows[i] ++ b2 paramHighs[i] ++ b2 paramDefaults[i]

/-- The fields of a parameter stand at their offsets. -/
structure ConfigFields (d : List Byte) (id : Byte) (i : Fin 23) (value : Nat) : Prop where
  length  : d.length = 9
  id      : byteAt d 0 = id
  value   : Holds2 d 1 (some value)
  low     : Holds2 d 3 (some paramLows[i])
  high    : Holds2 d 5 (some paramHighs[i])
  initial : Holds2 d 7 (some paramDefaults[i])

theorem configBytes_fields (id : Byte) (i : Fin 23) (value : Nat) :
    ConfigFields (configBytes id i value) id i value := by
  obtain ⟨_, _, present, hPresent⟩ := b2_holds value
  obtain ⟨_, _, low, hLow⟩ := b2_holds paramLows[i]
  obtain ⟨_, _, high, hHigh⟩ := b2_holds paramHighs[i]
  obtain ⟨_, _, initial, hInitial⟩ := b2_holds paramDefaults[i]
  rw [configBytes, present, low, high, initial]
  exact {
    length := rfl
    id := rfl
    value := hPresent _ _ rfl rfl
    low := hLow _ _ rfl rfl
    high := hHigh _ _ rfl rfl
    initial := hInitial _ _ rfl rfl }

theorem readConfigBody_badLength {p : List Byte} (h : p.length ≠ 1) (s : State) :
    readConfigBody p s = .error .badLength := by
  obtain rfl | ⟨a, b, r, rfl⟩ := FaultsAndNotices.payload_of_length_ne_one h <;> rfl

theorem readConfigBody_range {id : Byte} (h : id.toNat = 0 ∨ 23 < id.toNat) (s : State) :
    readConfigBody [id] s = .error .range := by
  simp only [readConfigBody, paramIndexOfId_none h]

theorem readConfigBody_reads {id : Byte} {i : Fin 23} (h : id.toNat = i.val + 1) (s : State) :
    readConfigBody [id] s = done s (configBytes id i s.params[i]) := by
  simp only [readConfigBody, paramIndexOfId_some h, configBytes]

end Sys2Proof.KilnLineManagement
end

section
/-! CERTIFICATE. SET_CONFIG and READ_CONFIG. -/

namespace Sys2Proof.KilnLineManagement

open Sys2Proof.Machine
open Sys2Proof.Safety
open Sys2Proof.Laws

/-- Settles O33: the checks of each request, the value brought into its limits (`paramTaken_eq`) and the bytes of
`configBytes_fields`. -/
theorem configRequests : Obligations.ConfigRequests := by
  refine ⟨fun f rest s asked => ?set, fun f rest s asked => ?read⟩
  case set =>
    refine ⟨fun bad => congrArg _ (serveRequest_refused asked (setConfigBody_badLength bad _)), fun id hi lo hp =>
      ⟨fun out => congrArg _ (serveRequest_refused asked (by rw [hp]; exact setConfigBody_range out hi lo _)),
        fun i named => ?_⟩⟩
    intro sent taken
    have value : taken = paramTaken i sent := (paramTaken_eq i sent).symm
    have sets := setConfigBody_sets named hi lo (Taken s rest)
    rw [← hp] at sets
    rw [value, ← b2_eq]
    exact congrArg _ ((serveRequest_ok asked sets rfl).trans rfl)
  case read =>
    refine ⟨fun bad => congrArg _ (serveRequest_refused asked (readConfigBody_badLength bad _)), fun id hp =>
      ⟨fun out => congrArg _ (serveRequest_refused asked (by rw [hp]; exact readConfigBody_range out _)),
        fun i named => ?_⟩⟩
    have fields := configBytes_fields id i s.params[i]
    exact ⟨configBytes id i s.params[i],
      congrArg _ (serveRequest_read asked (by rw [hp]; exact readConfigBody_reads named _)),
      fields.length, fields.id, fields.value, fields.low, fields.high, fields.initial⟩

end Sys2Proof.KilnLineManagement
end

section
/-! SUPPORT. The kinds outside the catalogue, and the full reply place (R160, R162). -/

namespace Sys2Proof.KilnLineManagement

open Sys2Proof.Machine
open Sys2Proof.Safety
open Sys2Proof.Laws

/-- Section 11.2: a kind code stands for a request only by that request's own entry; the converse of
`KindCode.Statement`. -/
theorem kindOfRequest_of_requestOfKind {k : Byte} {i : Instr} (h : requestOfKind k = some i) :
    kindOfRequest i = some k := by
  have entry {c : Byte} (hk : k.toNat = c.toNat) : some c = some k := congrArg some (BitVec.eq_of_toNat_eq hk.symm)
  unfold requestOfKind at h
  split at h <;> cases h <;> exact entry ‹_›

theorem requestOfKind_none {k : Byte} (h : ∀ i : Instr, kindOfRequest i ≠ some k) : requestOfKind k = none :=
  Option.eq_none_iff_forall_ne_some.2 fun i named => h i (kindOfRequest_of_requestOfKind named)

/-- R160: a request's row takes and answers the front frame when that is of the request's kind. -/
theorem exec_request {i : Instr} {k : Byte} (h : kindOfRequest i = some k) :
    ∃ body : List Byte → State → Answer, ∀ s, exec i s = .next (serveRequest k body s) := by
  cases i <;> cases h <;> exact ⟨_, fun _ => rfl⟩

/-- R160: a full reply place holds back every frame. -/
theorem serveFront_full {s : State} {r : Reply} (full : s.handler.replyPlace = some r) (accepts : KilnFrame → Bool)
    (body : KilnFrame → State → Answer) : serveFront accepts body s = s :=
  serveFront_idle accepts body s fun _ _ ⟨empty, _⟩ => absurd (full.symm.trans empty) nofun

end Sys2Proof.KilnLineManagement
end

section
/-! CERTIFICATE. UNKNOWN_REQUEST, and every request's row while the reply place is full. -/

namespace Sys2Proof.KilnLineManagement

open Sys2Proof.Machine
open Sys2Proof.Safety
open Sys2Proof.Laws

/-- Settles O35: a kind that no request has names none, and each of the rows serves the front frame. -/
theorem unknownKindRefused : Obligations.UnknownKindRefused := by
  refine ⟨fun f rest s front notWindow unknown => ?badKind, fun i r s full row => ?full⟩
  case badKind =>
    have accepted : (!f.cls.isWindow && (requestOfKind f.kind).isNone) = true := by
      rw [notWindow, requestOfKind_none unknown]
      rfl
    exact congrArg _ (serveFront_refused (why := .badKind) front accepted rfl)
  case full =>
    rcases row with request | rfl | rfl
    · obtain ⟨k, kind⟩ := Option.isSome_iff_exists.1 request
      obtain ⟨body, serves⟩ := exec_request kind
      exact (serves s).trans (congrArg _ (serveFront_full full _ _))
    · exact congrArg _ (serveFront_full full _ windowBody)
    · exact congrArg _ (serveFront_full full _ _)

end Sys2Proof.KilnLineManagement
end

section
/-! CERTIFICATE. One step of the machine, by the shape of the queue of commands. -/

namespace Sys2Proof.KilnLineManagement

open Sys2Proof.Machine
open Sys2Proof.Safety

/-- The front command leaves the queue before it runs. -/
theorem step_of_pending_cons {s : State} {c : Instr} {rest : List Instr} (front : s.pending = c :: rest) :
    step s = exec c { s with pending := rest } := by
  rw [step, front]

/-- Nothing waits, so nothing runs (log entry 3). -/
theorem step_of_pending_nil {s : State} (empty : s.pending = []) : step s = .next s := by
  rw [step, empty]

/-- Settles O1, by the two forms of the queue. -/
theorem stepRunsFront : Obligations.StepRunsFront :=
  ⟨fun _ _ _ front => step_of_pending_cons front, fun _ empty => step_of_pending_nil empty⟩

end Sys2Proof.KilnLineManagement
end
